-- ==== Sys2Proof/Word.lean ====
section
/-! DEFINITION. The word types of the block (spec rule R10) and the canonical byte list that holds a
sparse byte array. -/

namespace Sys2Proof

/-- `u8` of rule R10. -/
abbrev Byte := BitVec 8

/-- `u16` of rule R10. -/
abbrev Half := BitVec 16

/-- `u32` of rule R10: the native width of the block (rule R67). -/
abbrev Word := BitVec 32

/-- `u64` of rule R10: the PTIMER counter and alarm (rules R35, R36). -/
abbrev DWord := BitVec 64

/-- A sparse byte array: (offset, byte) pairs, offsets strictly rising. An offset that is not listed
holds NO value in the list; what a read of it gives is said in `Machine.State.byteAt`. -/
abbrev Mem := List Host.Cell

/-- The three access widths of rule R67: 1, 2 or 4 bytes. -/
inductive Width where
  | b1 | b2 | b4
  deriving DecidableEq, Repr, Inhabited

/-- The number of bytes of a width. -/
def Width.bytes : Width → Nat
  | .b1 => 1
  | .b2 => 2
  | .b4 => 4

end Sys2Proof
end

