-- ==== Sys2Proof/Config.lean ====
section
/-! DEFINITION. The implementation parameters: the record `CFG` of rules R5 to R9 as plain data, the
names it is written with, and the uninterpreted functions and draws of rule R15 as opaque constants
(nothing can be proved of their values). The numbers of the reference configuration are in
Machine/RefCfg.lean and the constraints a configuration meets are in Machine/Configure.lean. -/

namespace Sys2Proof

/-! ### Banks, targets, registers -/

/-- The nine banks that own an `intr`/`intr_en` pair (rule R25): every bank but PMC. -/
inductive IntrBank where
  | pbus | pfifo | ptimer | pfb | pstraps | pme | pvideo | pramdac | pgraph
  deriving DecidableEq, Repr, Inhabited

/-- The ten subsystem banks (rule R23). -/
inductive Bank where
  | pmc
  | sub (b : IntrBank)
  deriving DecidableEq, Repr, Inhabited

/-- What an `AMAP` entry routes to (rule R6). -/
inductive Region where
  | bank (b : Bank)
  | pbusPci | prom | vram | user | ramin
  deriving DecidableEq, Repr, Inhabited

/-- The answer of `Target(a)` (rule R133). -/
inductive Target where
  | region (r : Region)
  | rmaMmio
  | unmapped
  deriving DecidableEq, Repr, Inhabited

/-- The registers of kind `Plain` (rule R24): the named ones, and the cells a configuration adds (rule R7). -/
inductive PlainReg where
  | pmcEnable
  | ptimerNumerator
  | ptimerDenominator
  | pal (k : BitVec 2)
  | extra (k : Nat)
  deriving DecidableEq, Repr, Inhabited

/-- The registers of kind `Computed`, each with a rule of its own (rule R7). -/
inductive ComputedReg where
  | pmcIntr
  | pmcIntrEn
  | bankIntr (b : IntrBank)
  | bankIntrEn (b : IntrBank)
  | timeLo | timeHi | alarmLo | alarmHi
  | straps
  | mpll | vpll
  deriving DecidableEq, Repr, Inhabited

/-- The kinds of a register descriptor: `Plain`, `ReadOnly(c)`, `Computed(rule)` (rule R7). -/
inductive RegKind where
  | plain (p : PlainReg)
  | readOnly (c : Word)
  | computed (r : ComputedReg)
  deriving DecidableEq, Repr, Inhabited

/-- The friendly name of a register-table entry (rule R7). -/
inductive RegName where
  | pmcBoot
  | plain (p : PlainReg)
  | computed (r : ComputedReg)
  deriving DecidableEq, Repr, Inhabited

/-! ### PGRAPH names and records -/

/-- The eight handlers the spec does not open (rules R273 to R280), and the handlers a class table adds
(rule R111), by number. -/
inductive RasterClass where
  | point | line | tri | gditext | m2mf | sifm | blit | image
  /-- a handler a class table adds (rule R111): that it is of the form of rule R283, like the eight the spec
  does not open, is the model's DESIGN CHOICE (log entry 31) -/
  | added (k : Nat)
  deriving DecidableEq, Repr, Inhabited

/-- The fifteen class handlers (rule R9), with the handlers a class table adds (rule R111). -/
inductive Handler where
  | beta | rop | chroma | plane | clip | pattern | rect
  | raster (c : RasterClass)
  deriving DecidableEq, Repr, Inhabited

/-- `Color` of rule R41. -/
structure Color where
  a : Byte
  r : BitVec 10
  g : BitVec 10
  b : BitVec 10
  deriving DecidableEq, Repr, Inhabited

/-- The four words of a graphics object descriptor (rule R104). -/
structure Grobj where
  g0 : Word
  g1 : Word
  g2 : Word
  g3 : Word
  deriving DecidableEq, Repr, Inhabited

/-- `PGRAPH.opaque` (rule R41): an uninterpreted record, held as a list of words. -/
abbrev BlackBox := List Word

/-- The PGRAPH rendering state (rule R41). -/
structure Pgraph where
  beta : Word
  rop : Byte
  chroma : Color
  planeMask : Word
  clipX : Half
  clipY : Half
  clipW : Half
  clipH : Half
  patShape : BitVec 2
  patColor0 : Color
  patColor1 : Color
  patBitmap : DWord
  rectColor : Color
  rectX : Vector Half 16
  rectY : Vector Half 16
  blackBox : BlackBox
  deriving DecidableEq, Repr

/-- A request of a black-box handler (rule R283). -/
inductive Request where
  | pix (x y : Nat) (src : Color)
  | raw (off : Nat) (n : Width) (v : Word)
  deriving DecidableEq, Repr, Inhabited

/-- The byte arrays of rule R12, less PCI, which is a register file of its own. -/
inductive Space where
  | vram | ramin | prom
  deriving DecidableEq, Repr, Inhabited

/-- The method id and parameter a handler is given (rule R260). -/
structure MethodCall where
  m : Word
  param : Word
  deriving DecidableEq, Repr, Inhabited

/-- The two software timers (rule R38). -/
inductive ClockId where
  | pclk | mclk
  deriving DecidableEq, Repr, Inhabited

/-! ### The configuration record -/

/-- An inclusive address range. -/
structure Range where
  lo : Word
  hi : Word
  deriving DecidableEq, Repr, Inhabited

/-- `lo <= a <= hi`, unsigned and inclusive (rule R133). -/
def Range.has (r : Range) (a : Word) : Bool := decide (r.lo ≤ a) && decide (a ≤ r.hi)

/-- A bit field `[hi:lo]` of a 32-bit word. -/
structure BitRange where
  hi : Nat
  lo : Nat
  deriving DecidableEq, Repr, Inhabited

/-- One entry of `AMAP` (rule R6). -/
structure AmapEntry where
  region : Region
  range : Range
  deriving DecidableEq, Repr, Inhabited

/-- One entry of `RTAB` (rule R7); its friendly name follows from its kind. -/
structure RegEntry where
  addr : Word
  bank : Bank
  kind : RegKind
  mask : Word
  reset : Word
  deriving DecidableEq, Repr, Inhabited

/-- The friendly name of an entry. -/
def RegEntry.name (e : RegEntry) : RegName :=
  match e.kind with
  | .plain p => .plain p
  | .readOnly _ => .pmcBoot
  | .computed r => .computed r

/-- The four signature bytes `RMA_SIG[0..3]` (rule R5). -/
structure Bytes4 where
  b0 : Byte
  b1 : Byte
  b2 : Byte
  b3 : Byte
  deriving DecidableEq, Repr, Inhabited

/-- `UNKNOWN_CLASS_POLICY` (rule R5). -/
inductive ClassPolicy where
  | fatal | logNoop
  deriving DecidableEq, Repr, Inhabited

/-- One bit of one grobj word (rule R104). -/
structure GrobjBit where
  word : BitVec 2
  bit : Nat
  deriving DecidableEq, Repr, Inhabited

/-- One field of one grobj word (rule R104). -/
structure GrobjField where
  word : BitVec 2
  hi : Nat
  lo : Nat
  deriving DecidableEq, Repr, Inhabited

/-- `METHODS[class]` (rule R9): the method ids inside the opened classes. RECT has a point id and a size id
for each index 0 to 15. -/
structure MethodMap where
  setBeta : Word
  setRop : Word
  chromaColor : Word
  planeMask : Word
  clipPoint : Word
  clipSize : Word
  patShape : Word
  patColor0 : Word
  patColor1 : Word
  patBitmap0 : Word
  patBitmap1 : Word
  rectColor : Word
  rectPoint : Vector Word 16
  rectSize : Vector Word 16
  deriving DecidableEq, Repr, Inhabited

/-- The record `CFG` (rules R5 to R9). Every field is named as the spec's table names it. -/
structure Cfg where
  addrBits : Nat
  vramSize : Nat
  raminSize : Nat
  romSize : Nat
  pmcBootValue : Word
  pmcEnHwBit : Nat
  pmcEnSwBit : Nat
  ptimerAlarmBit : Nat
  /-- `PLL_M`, with `PLL_N` and `PLL_P`; that M and N are of any width and that the fields may overlap is the
  model's DESIGN CHOICE (log entry 36) -/
  pllM : BitRange
  pllN : BitRange
  pllP : BitRange
  /-- `CRYSTAL_HZ` in Hz; that it is a rational and not a natural number is the model's DESIGN CHOICE
  (log entry 30): rule R230 asks for a value of at least 1 and exact rational results -/
  crystalHz : Rat
  /-- `FIX_QUOTIENT`, which rule R5 names and does not define; that it is any rational, zero and negative ones
  included, is the model's DESIGN CHOICE (log entry 35) -/
  fixQuotient : Rat
  rmaPortBase : Half
  rmaSig : Bytes4
  modeMax : Byte
  modeAutoinc : Byte
  rmaModeIndex : Byte
  tGeneric : Word
  mSetNotifyCtx : Word
  /-- `W_METHOD`, the width of `method_id` (rules R5, R94) -/
  wMethod : Nat
  /-- `W_CHAN`, the width of `channel` -/
  wChan : Nat
  /-- `W_SUBCHAN`, the width of `subchannel` -/
  wSubchan : Nat
  /-- `W_CLASS`, the width of `class_id` -/
  wClass : Nat
  unknownClassPolicy : ClassPolicy
  strapOverwrite : Bool
  strapsReset : Word
  pciVendorId : Half
  pciDeviceId : Half
  grobjChromaEn : GrobjBit
  grobjFmt : GrobjField
  amap : List AmapEntry
  byteWindows : List Range
  rmaMmioWindow : Option Range
  rtab : List RegEntry
  pmcBit : List (IntrBank × Nat)
  classTab : List (Word × Handler)
  methods : MethodMap
  /-- the bytes of the ROM image the configuration names (rule R46); a byte it does not name is
  `Config.romByte` -/
  rom : Mem
  deriving DecidableEq, Repr

/-! ### Uninterpreted functions and draws (rule R15)

Each is a constant without a body: a rule that uses one holds for every value of it. -/

namespace Config

/-- `expand(fmt, raw)` (rule R283). -/
opaque expand : BitVec 3 → Word → Color

/-- `down(g, c)` (rule R283). -/
opaque down : Grobj → Color → Word

/-- `pix_addr(opaque, g, x, y)` (rule R283): the byte offset and byte count of a pixel. -/
opaque pixAddr : BlackBox → Grobj → Nat → Nat → Nat × Width

/-- `rop_blend_pack(rop, beta, plane_mask, g, src, pat, dst)` (rule R283). -/
opaque ropBlendPack : Byte → Word → Word → Grobj → Color → Color → Word → Word

/-- `raster[h](opaque, rendering state, g, m, param, VRAM, RAMIN)` (rule R283). The rendering state
argument holds `PGRAPH.opaque`; the two memories are given by their contents. -/
opaque raster : RasterClass → Pgraph → Grobj → MethodCall → (Nat → Byte) → (Nat → Byte) →
  BlackBox × List Request

/-- The configuration-given initial value of `PGRAPH.opaque` (rule R41). -/
opaque blackBoxInit : BlackBox

/-- The byte that a VRAM or RAMIN offset holds after the RESET of the given number, until something
writes it: the fresh draw of rule R350. -/
opaque ramByte : Space → Nat → Nat → Byte

/-- The byte of the ROM image at an offset the configuration does not name (rule R46). -/
opaque romByte : Nat → Byte

/-- The draw of a read of the USER target (rule R151). -/
opaque userRead : Nat → Word

/-- The draw of a read of a legacy port outside the four RMA ports (rule R213). -/
opaque portRead : Nat → Byte

/-- The unspecified `period_us` of a timer that has not been armed since the RESET of the given number
(rule R38). -/
opaque restPeriod : ClockId → Nat → Rat

end Config

end Sys2Proof
end

