-- ==== Sys2Proof/Machine/Configure.lean ====
section
/-! DEFINITION. The constraints a configuration of this hardware meets (rules R6, R8, R134, R195,
R211 and the ranges of rule R5). A record that breaks one is refused: it has no `ValidCfg`, and the
machine's state holds a `ValidCfg`. -/

namespace Sys2Proof

/-- Every pair of two entries of a list, in list order, passes a test. -/
def pairsOk {α : Type} (p : α → α → Bool) : List α → Bool
  | [] => true
  | x :: xs => xs.all (p x) && pairsOk p xs

/-- A power of two (rules R12, R66: the size of a byte array). -/
def isPow2 (n : Nat) : Bool := n != 0 && n &&& (n - 1) == 0

/-- Offsets of a byte list strictly rise. -/
def Mem.wf (m : Mem) : Bool :=
  match m with
  | [] => true
  | [_] => true
  | c :: d :: rest => decide (c.1 < d.1) && Mem.wf (d :: rest)

/-- The place of a region in the priority order of rule R6. -/
def Region.rank : Region → Nat
  | .bank .pmc => 1
  | .pbusPci => 2
  | .bank (.sub .pbus) => 3
  | .bank (.sub .pfifo) => 4
  | .bank (.sub .ptimer) => 5
  | .bank (.sub .pfb) => 6
  | .bank (.sub .pstraps) => 7
  | .prom => 8
  | .bank (.sub .pme) => 9
  | .bank (.sub .pgraph) => 10
  | .bank (.sub .pvideo) => 11
  | .bank (.sub .pramdac) => 12
  | .vram => 13
  | .user => 14
  | .ramin => 15

/-- A range that holds no address: `lo` above `hi` (log entry 38). -/
def Range.isEmpty (x : Range) : Bool := decide (x.hi < x.lo)

/-- No address lies in both ranges. -/
def Range.disjoint (x y : Range) : Bool :=
  x.isEmpty || y.isEmpty || decide (x.hi < y.lo) || decide (y.hi < x.lo)

/-- Every address from `lo` to `hi` lies in one of the ranges: `lo` lies in one, which holds `hi` too or after
which, in at most `n` steps, the same is asked of the next address. -/
def coversFrom (rs : List Range) (n lo hi : Nat) : Bool :=
  match n with
  | 0 => false
  | k + 1 =>
    match rs.find? (fun r => decide (r.lo.toNat ≤ lo) && decide (lo ≤ r.hi.toNat)) with
    | none => false
    | some r => decide (hi ≤ r.hi.toNat) || coversFrom rs k (r.hi.toNat + 1) hi

/-- Every address of a range lies in one of the ranges of a list; each is needed once at most. -/
def Range.insideAll (x : Range) (rs : List Range) : Bool :=
  x.isEmpty || coversFrom rs rs.length x.lo.toNat x.hi.toNat

/-- Two `AMAP` entries, the earlier first: in priority order, and disjoint unless they are the PCI mirror and
PBUS (rules R6, R134); that the mirror lies inside PBUS is `mirrorInPbus`. -/
def amapPairOk (x y : AmapEntry) : Bool :=
  decide (x.region.rank ≤ y.region.rank) &&
  (x.range.disjoint y.range || (decide (x.region = .pbusPci) && decide (y.region = .bank (.sub .pbus))))

/-- The fifteen targets of rule R6, in order. -/
def allRegions : List Region :=
  [.bank .pmc, .pbusPci, .bank (.sub .pbus), .bank (.sub .pfifo), .bank (.sub .ptimer),
   .bank (.sub .pfb), .bank (.sub .pstraps), .prom, .bank (.sub .pme), .bank (.sub .pgraph),
   .bank (.sub .pvideo), .bank (.sub .pramdac), .vram, .user, .ramin]

/-- The `AMAP` ranges of a target. -/
def rangesOf (amap : List AmapEntry) (g : Region) : List Range :=
  (amap.filter fun e => decide (e.region = g)).map fun e => e.range

/-- The PCI mirror lies inside PBUS (rules R6, R71, R134). Where PBUS has several entries the spec does not say
whether inside means one of them; that it means all of them together, so that a mirror may straddle two adjacent
ones, is the model's DESIGN CHOICE (log entry 39). -/
def mirrorInPbus (amap : List AmapEntry) (e : AmapEntry) : Bool :=
  decide (e.region ≠ .pbusPci) || e.range.insideAll (rangesOf amap (.bank (.sub .pbus)))

/-- The constraint on `AMAP` (rules R6, R71, R134). A range with `lo` above `hi` holds no address, so it overlaps
none; no rule forbids one, and it is accepted (DEDUCED, log entry 38). -/
def Cfg.amapOk (c : Cfg) : Bool :=
  pairsOk amapPairOk c.amap && c.amap.all (mirrorInPbus c.amap) &&
  allRegions.all (fun r => c.amap.any (fun e => decide (e.region = r)))

/-- The bank a named register belongs to (rule R7); an added register may lie in any bank. -/
def RegKind.bankOk (k : RegKind) (b : Bank) : Bool :=
  match k with
  | .readOnly _ => decide (b = .pmc)
  | .plain .pmcEnable => decide (b = .pmc)
  | .plain .ptimerNumerator => decide (b = .sub .ptimer)
  | .plain .ptimerDenominator => decide (b = .sub .ptimer)
  | .plain (.pal _) => decide (b = .sub .pramdac)
  | .plain (.extra _) => true
  | .computed .pmcIntr => decide (b = .pmc)
  | .computed .pmcIntrEn => decide (b = .pmc)
  | .computed (.bankIntr b') => decide (b = .sub b')
  | .computed (.bankIntrEn b') => decide (b = .sub b')
  | .computed .timeLo => decide (b = .sub .ptimer)
  | .computed .timeHi => decide (b = .sub .ptimer)
  | .computed .alarmLo => decide (b = .sub .ptimer)
  | .computed .alarmHi => decide (b = .sub .ptimer)
  | .computed .straps => decide (b = .sub .pstraps)
  | .computed .mpll => decide (b = .sub .pramdac)
  | .computed .vpll => decide (b = .sub .pramdac)

/-- The six banks to which rule R7 gives an addressable interrupt pair. -/
def pairBanks : List IntrBank := [.pbus, .pfifo, .ptimer, .pme, .pgraph, .pvideo]

/-- The entries named in rule R7, all of which every register table holds (rule R195). -/
def requiredRegs : List RegName :=
  [.pmcBoot, .computed .pmcIntr, .computed .pmcIntrEn, .plain .pmcEnable] ++
  pairBanks.map (fun b => .computed (.bankIntr b)) ++
  pairBanks.map (fun b => .computed (.bankIntrEn b)) ++
  [.plain .ptimerNumerator, .plain .ptimerDenominator, .computed .timeLo, .computed .timeHi,
   .computed .alarmLo, .computed .alarmHi, .computed .straps, .computed .mpll, .computed .vpll,
   .plain (.pal 0), .plain (.pal 1), .plain (.pal 2), .plain (.pal 3)]

/-- An entry is one of rule R7's, or an added `Plain` one (rule R195: "entries added by a
configuration are `Plain`"); a read-only entry is `PMC_BOOT` with its value. -/
def Cfg.entryKindOk (c : Cfg) (e : RegEntry) : Bool :=
  match e.kind with
  | .plain _ => true
  | .readOnly v => decide (v = c.pmcBootValue)
  | .computed r => decide (RegName.computed r ∈ requiredRegs)

/-- `InByteWindow(a1)` (rule R132): in one of `BYTE_WINDOWS`, or in `RMA_MMIO_WINDOW` when there is one. -/
def Cfg.inByteWindow (c : Cfg) (a : Word) : Bool :=
  c.byteWindows.any (fun r => r.has a) ||
  match c.rmaMmioWindow with
  | some r => r.has a
  | none => false

/-- The constraint on one `RTAB` entry (rule R195): inside its bank's range, dword-aligned outside a
byte window. -/
def Cfg.entryOk (c : Cfg) (e : RegEntry) : Bool :=
  c.amap.any (fun m => decide (m.region = .bank e.bank) && m.range.has e.addr) &&
  (c.inByteWindow e.addr || e.addr &&& 3 == 0) && e.kind.bankOk e.bank && c.entryKindOk e

/-- Two entries have two addresses (rule R195), and each entry named in rule R7 stands once: what a
configuration adds is another `Plain` entry, whatever its name. -/
def entryPairOk (x y : RegEntry) : Bool :=
  decide (x.addr ≠ y.addr) && (decide (x.name ≠ y.name) || !decide (x.name ∈ requiredRegs))

/-- The constraint on `RTAB` (rule R195). -/
def Cfg.rtabOk (c : Cfg) : Bool :=
  c.rtab.all c.entryOk && pairsOk entryPairOk c.rtab &&
  requiredRegs.all (fun n => c.rtab.any (fun e => decide (e.name = n)))

/-- The constraint on `PMC_BIT` (rule R8): positions 0 to 30, two different banks at two positions. -/
def Cfg.pmcBitOk (c : Cfg) : Bool :=
  c.pmcBit.all (fun p => decide (p.2 < 31)) &&
  pairsOk (fun x y => decide (x.1 ≠ y.1) && decide (x.2 ≠ y.2)) c.pmcBit

/-- A bit field of a 32-bit word. -/
def BitRange.ok (r : BitRange) : Bool := decide (r.lo ≤ r.hi) && decide (r.hi < 32)

/-- The ranges rule R5 gives the scalar parameters, with R66 (sizes are powers of two), R71 (the window
is 16 MB or 32 MB, the ports lie in 0x3B0 to 0x3DF), R99 (P is three bits), R211 (`MODE_MAX - 1` even)
and R230 (`CRYSTAL_HZ >= 1`). That a tuple field has at most 32 bits is the model's (log entry 29), and that
the M and N fields are of any width inside the word, overlapping or not (log entry 36). -/
def Cfg.scalarsOk (c : Cfg) : Bool :=
  (c.addrBits == 24 || c.addrBits == 25) &&
  (c.vramSize == 0x200000 || c.vramSize == 0x400000 || c.vramSize == 0x800000) &&
  isPow2 c.raminSize && isPow2 c.romSize &&
  decide (c.pmcEnHwBit < 32) && decide (c.pmcEnSwBit < 32) && decide (c.pmcEnHwBit ≠ c.pmcEnSwBit) &&
  decide (c.ptimerAlarmBit < 32) &&
  c.pllM.ok && c.pllN.ok && c.pllP.ok && decide (c.pllP.hi = c.pllP.lo + 2) &&
  decide ((1 : Rat) ≤ c.crystalHz) &&
  decide (c.wMethod ≤ 32) && decide (c.wChan ≤ 32) && decide (c.wSubchan ≤ 32) && decide (c.wClass ≤ 32) &&
  decide (0x3B0 ≤ c.rmaPortBase.toNat) && decide (c.rmaPortBase.toNat + 3 ≤ 0x3DF) &&
  (c.modeMax - 1) &&& 1 == 0 &&
  decide (c.grobjChromaEn.bit < 32) && decide (c.grobjFmt.lo ≤ c.grobjFmt.hi) &&
  decide (c.grobjFmt.hi < 32) && decide (c.grobjFmt.hi ≤ c.grobjFmt.lo + 2) &&
  Mem.wf c.rom

/-- A configuration of this hardware. -/
def Cfg.valid (c : Cfg) : Bool := c.scalarsOk && c.amapOk && c.rtabOk && c.pmcBitOk

/-- A configuration together with the fact that it meets the constraints: a record that breaks one is
refused, because it has no such pair (rules R134, R195, R211). -/
abbrev ValidCfg := { c : Cfg // c.valid = true }

end Sys2Proof
end

