-- ==== Sys2Proof/Machine/RefCfg.lean ====
section
/-! DEFINITION. The reference configuration REFCFG of rules R5 to R9, in its two variants REFCFG-16
and REFCFG-32, and the rows of the opcode table that are address ranges (rule R109, format RANGE). -/

namespace Sys2Proof

/-- An `AMAP` entry. -/
def amapEntry (r : Region) (lo hi : Word) : AmapEntry := { region := r, range := { lo := lo, hi := hi } }

/-- The REFCFG `AMAP` (rule R6, the table of section 4.2). -/
def refAmap : List AmapEntry :=
  [amapEntry (.bank .pmc) 0x000000 0x000FFF,
   amapEntry .pbusPci 0x001800 0x0018FF,
   amapEntry (.bank (.sub .pbus)) 0x001000 0x001FFF,
   amapEntry (.bank (.sub .pfifo)) 0x002000 0x003FFF,
   amapEntry (.bank (.sub .ptimer)) 0x009000 0x009FFF,
   amapEntry (.bank (.sub .pfb)) 0x100000 0x100FFF,
   amapEntry (.bank (.sub .pstraps)) 0x101000 0x101FFF,
   amapEntry .prom 0x110000 0x11FFFF,
   amapEntry (.bank (.sub .pme)) 0x200000 0x200FFF,
   amapEntry (.bank (.sub .pgraph)) 0x400000 0x401FFF,
   amapEntry (.bank (.sub .pvideo)) 0x680000 0x6802FF,
   amapEntry (.bank (.sub .pramdac)) 0x680300 0x680FFF,
   amapEntry (.bank (.sub .pramdac)) 0x6813C6 0x6813C9,
   amapEntry .vram 0x1000000 0x17FFFFF,
   amapEntry .user 0x800000 0xFFFFFF,
   amapEntry .ramin 0x1C00000 0x1FFFFFF]

/-- `PMC_BOOT_VALUE` of REFCFG (rule R5). -/
def refBoot : Word := 0x00030100

/-- An `RTAB` entry of full mask and reset value 0, in a bank other than PMC. -/
def regEntry (addr : Word) (b : IntrBank) (k : RegKind) : RegEntry :=
  { addr := addr, bank := .sub b, kind := k, mask := 0xFFFFFFFF, reset := 0 }

/-- The REFCFG `RTAB` (rule R7, the table of section 4.3), in the table's order. -/
def refRtab : List RegEntry :=
  [{ addr := 0x000000, bank := .pmc, kind := .readOnly refBoot, mask := 0, reset := refBoot },
   { addr := 0x000100, bank := .pmc, kind := .computed .pmcIntr, mask := 0xFFFFFFFF, reset := 0 },
   { addr := 0x000140, bank := .pmc, kind := .computed .pmcIntrEn, mask := 0x00000003, reset := 0 },
   { addr := 0x000200, bank := .pmc, kind := .plain .pmcEnable, mask := 0xFFFFFFFF, reset := 0 },
   regEntry 0x001100 .pbus (.computed (.bankIntr .pbus)),
   regEntry 0x001140 .pbus (.computed (.bankIntrEn .pbus)),
   regEntry 0x002100 .pfifo (.computed (.bankIntr .pfifo)),
   regEntry 0x002140 .pfifo (.computed (.bankIntrEn .pfifo)),
   regEntry 0x009100 .ptimer (.computed (.bankIntr .ptimer)),
   regEntry 0x009140 .ptimer (.computed (.bankIntrEn .ptimer)),
   regEntry 0x009200 .ptimer (.plain .ptimerNumerator),
   regEntry 0x009210 .ptimer (.plain .ptimerDenominator),
   regEntry 0x009400 .ptimer (.computed .timeLo),
   regEntry 0x009410 .ptimer (.computed .timeHi),
   regEntry 0x009420 .ptimer (.computed .alarmLo),
   regEntry 0x009430 .ptimer (.computed .alarmHi),
   regEntry 0x101000 .pstraps (.computed .straps),
   regEntry 0x200100 .pme (.computed (.bankIntr .pme)),
   regEntry 0x200140 .pme (.computed (.bankIntrEn .pme)),
   regEntry 0x400100 .pgraph (.computed (.bankIntr .pgraph)),
   regEntry 0x400140 .pgraph (.computed (.bankIntrEn .pgraph)),
   regEntry 0x680100 .pvideo (.computed (.bankIntr .pvideo)),
   regEntry 0x680140 .pvideo (.computed (.bankIntrEn .pvideo)),
   regEntry 0x680504 .pramdac (.computed .mpll),
   regEntry 0x680508 .pramdac (.computed .vpll),
   { regEntry 0x6813C6 .pramdac (.plain (.pal 0)) with mask := 0xFF },
   { regEntry 0x6813C7 .pramdac (.plain (.pal 1)) with mask := 0xFF },
   { regEntry 0x6813C8 .pramdac (.plain (.pal 2)) with mask := 0xFF },
   { regEntry 0x6813C9 .pramdac (.plain (.pal 3)) with mask := 0xFF }]

/-- The REFCFG `CLASS_TAB` (rule R9). -/
def refClassTab : List (Word × Handler) :=
  [(0x01, .beta), (0x02, .rop), (0x03, .chroma), (0x04, .plane), (0x05, .clip), (0x06, .pattern),
   (0x07, .rect), (0x08, .raster .point), (0x09, .raster .line), (0x0B, .raster .tri),
   (0x0C, .raster .gditext), (0x0D, .raster .m2mf), (0x0E, .raster .sifm), (0x10, .raster .blit),
   (0x11, .raster .image)]

/-- The REFCFG method ids (rules R266 to R272). -/
def refMethods : MethodMap :=
  { setBeta := 0x0300, setRop := 0x0300, chromaColor := 0x0304, planeMask := 0x0304,
    clipPoint := 0x0300, clipSize := 0x0304, patShape := 0x0308, patColor0 := 0x0310,
    patColor1 := 0x0314, patBitmap0 := 0x0318, patBitmap1 := 0x031C, rectColor := 0x0304,
    rectPoint := Vector.ofFn (fun i => BitVec.ofNat 32 (0x0400 + 8 * i.val))
    rectSize := Vector.ofFn (fun i => BitVec.ofNat 32 (0x0404 + 8 * i.val)) }

/-- REFCFG with `ADDR_BITS` left open (rules R5 to R9). -/
def refCfgWith (addrBits : Nat) : Cfg :=
  { addrBits := addrBits
    vramSize := 0x400000
    raminSize := 0x100000
    romSize := 0x10000
    pmcBootValue := refBoot
    pmcEnHwBit := 0
    pmcEnSwBit := 1
    ptimerAlarmBit := 0
    pllM := { hi := 7, lo := 0 }
    pllN := { hi := 15, lo := 8 }
    pllP := { hi := 18, lo := 16 }
    crystalHz := 13500000
    fixQuotient := 1
    rmaPortBase := 0x3D0
    rmaSig := { b0 := 0x65, b1 := 0xD0, b2 := 0x16, b3 := 0x2B }
    modeMax := 0x0F
    modeAutoinc := 0x08
    rmaModeIndex := 0x38
    tGeneric := 0x0105
    mSetNotifyCtx := 0x0100
    wMethod := 13
    wChan := 7
    wSubchan := 3
    wClass := 5
    unknownClassPolicy := .fatal
    strapOverwrite := false
    strapsReset := 0x00000000
    pciVendorId := 0x12D2
    pciDeviceId := 0x0018
    grobjChromaEn := { word := 0, bit := 12 }
    grobjFmt := { word := 0, hi := 2, lo := 0 }
    amap := refAmap
    byteWindows := [{ lo := 0x6813C6, hi := 0x6813C9 }]
    rmaMmioWindow := none
    rtab := refRtab
    pmcBit := [(.pme, 4), (.pfifo, 8), (.pgraph, 12), (.pvideo, 16), (.ptimer, 20), (.pbus, 28)]
    classTab := refClassTab
    methods := refMethods
    rom := [] }

theorem refCfg16_valid : (refCfgWith 24).valid = true := by decide +kernel

theorem refCfg32_valid : (refCfgWith 25).valid = true := by decide +kernel

/-- REFCFG-16: the 16 MB window (rule R5). -/
def refCfg16 : ValidCfg := ⟨refCfgWith 24, refCfg16_valid⟩

/-- REFCFG-32: the 32 MB window (rule R5). -/
def refCfg32 : ValidCfg := ⟨refCfgWith 25, refCfg32_valid⟩

/-! ### The RANGE rows of the opcode table -/

/-- The seventeen RANGE mnemonics of the opcode table. -/
inductive RangeRow where
  | pmc | pbusPci | pbus | pfifo | ptimer | pfb | pstraps | prom | pme | pgraph | pvideo
  | pramdac | palette | vram | user | ramin | unmapped
  deriving DecidableEq, Repr, Inhabited

/-- What answers in the range of a row (rule R6); no region answers the default row. -/
def RangeRow.region : RangeRow → Option Region
  | .pmc => some (.bank .pmc)
  | .pbusPci => some .pbusPci
  | .pbus => some (.bank (.sub .pbus))
  | .pfifo => some (.bank (.sub .pfifo))
  | .ptimer => some (.bank (.sub .ptimer))
  | .pfb => some (.bank (.sub .pfb))
  | .pstraps => some (.bank (.sub .pstraps))
  | .prom => some .prom
  | .pme => some (.bank (.sub .pme))
  | .pgraph => some (.bank (.sub .pgraph))
  | .pvideo => some (.bank (.sub .pvideo))
  | .pramdac => some (.bank (.sub .pramdac))
  | .palette => some (.bank (.sub .pramdac))
  | .vram => some .vram
  | .user => some .user
  | .ramin => some .ramin
  | .unmapped => none

/-- The `lo` and `hi` the opcode table gives each RANGE row, in ascending priority. -/
def rangeRows : List (RangeRow × Nat × Nat) :=
  [(.pmc, 0x0000000, 0x0000FFF),
   (.pbusPci, 0x0001800, 0x00018FF),
   (.pbus, 0x0001000, 0x0001FFF),
   (.pfifo, 0x0002000, 0x0003FFF),
   (.ptimer, 0x0009000, 0x0009FFF),
   (.pfb, 0x0100000, 0x0100FFF),
   (.pstraps, 0x0101000, 0x0101FFF),
   (.prom, 0x0110000, 0x011FFFF),
   (.pme, 0x0200000, 0x0200FFF),
   (.pgraph, 0x0400000, 0x0401FFF),
   (.pvideo, 0x0680000, 0x06802FF),
   (.pramdac, 0x0680300, 0x0680FFF),
   (.palette, 0x06813C6, 0x06813C9),
   (.vram, 0x1000000, 0x17FFFFF),
   (.user, 0x0800000, 0x0FFFFFF),
   (.ramin, 0x1C00000, 0x1FFFFFF)]

/-- Step 1 of rule R109 on a 25-bit address under REFCFG-32: dword-align, except inside the palette
byte window (rules R98, R131). -/
def refAlign (a : Nat) : Nat :=
  if 0x6813C6 ≤ a && a ≤ 0x6813C9 then a else a / 4 * 4

/-- The first RANGE row, in ascending priority, whose range holds an aligned address; the default row
when none does (rule R109). -/
def firstRow (a : Nat) : List (RangeRow × Nat × Nat) → RangeRow
  | [] => .unmapped
  | (r, lo, hi) :: rest => if lo ≤ a && a ≤ hi then r else firstRow a rest

/-- The RANGE row that a 25-bit address selects under REFCFG-32 (rule R109, steps 1, 3 and 4). -/
def rangeRow (a : BitVec 25) : RangeRow := firstRow (refAlign a.toNat) rangeRows

end Sys2Proof
end

