-- ==== Sys2Proof/Syntax.lean ====
section
/-! DEFINITION. The operations (rule R90) and the decode cases (rule R109) of the opcode table: one
constructor per mnemonic of spec/opcode_table.json.

The table has five formats. `OP` rows are the nineteen operations the agents issue. `RANGE`, `REG`,
`RMA` and `METHOD` rows are the cases the block's own decoders select (rules R109, R384): each is a
micro-operation here, with the operands its rule needs, so that every row has a meaning of its own and
the operations can be stated to be the case their operands select. -/

namespace Sys2Proof

/-- The five formats of the opcode table (rule R109): which interface or dispatch table a word's key
belongs to. Rule R90: "on the hardware the kind is given by which interface is used". -/
inductive Fmt where
  | op | range | reg | rma | method
  deriving DecidableEq, Repr, Inhabited

/-- One operation as presented to the block: the format its key belongs to, and its bits, bit 0 the
least significant, key first and operands above it. The word is a natural number because one operand,
`elapsed : nat` of rule R234, has no bound. -/
structure OpFrame where
  fmt : Fmt
  word : Nat
  deriving DecidableEq, Repr, Inhabited

/-- Why a frame names no operation. -/
inductive DecodeError where
  /-- the key is none of its table's -/
  | reservedKey
  /-- an operand field holds a value the operand does not take -/
  | badOperand
  /-- a bit above the last operand is set -/
  | excessBits
  deriving DecidableEq, Repr, Inhabited

/-- Direction and data of a 32-bit access to a decode case (`ArbRead`/`ArbWrite`, `BankRead`/`BankWrite`). -/
inductive Access where
  | read
  | write (v : Word)
  deriving DecidableEq, Repr, Inhabited

/-- The data of an LFB write: `v` of `n` bytes (rule R308). -/
inductive Datum where
  | d1 (v : Byte)
  | d2 (v : Half)
  | d4 (v : Word)
  deriving DecidableEq, Repr, Inhabited

/-- The operands of a method submission other than the class (rule R94). How many low bits of `ch`, `sc` and
`m` there are is a parameter of the configuration: `Machine.narrowSub` takes them. -/
structure Submission where
  ch : Word
  sc : Word
  m : Word
  ctx : BitVec 28
  param : Word
  deriving DecidableEq, Repr, Inhabited

/-- The operations and decode cases: one constructor per mnemonic of the opcode table. -/
inductive Instr where
  -- OP: the nineteen operations (rule R90)
  | mrd8 (a : Word)
  | mrd16 (a : Word)
  | mrd32 (a : Word)
  | mwr8 (a : Word) (v : Byte)
  | mwr16 (a : Word) (v : Half)
  | mwr32 (a : Word) (v : Word)
  | iord8 (port : Half)
  | iowr8 (port : Half) (v : Byte)
  | cfgrd8 (fn : Byte) (off : Byte)
  | cfgwr8 (fn : Byte) (off : Byte) (v : Byte)
  | lfbrd (n : Width) (off : Word)
  | lfbwr (off : Word) (d : Datum)
  | tickPclk
  | tickMclk (elapsed : Nat)
  | method (cls : Word) (sub : Submission)
  | raise (b : IntrBank) (bits : Word)
  | swiRaise
  | reset
  | rmaSetmode (v : Byte)
  -- RANGE: the arbiter's targets (rules R109, R133)
  | rangePmc (a : BitVec 25) (acc : Access)
  | rangePbusPci (a : BitVec 25) (acc : Access)
  | rangePbus (a : BitVec 25) (acc : Access)
  | rangePfifo (a : BitVec 25) (acc : Access)
  | rangePtimer (a : BitVec 25) (acc : Access)
  | rangePfb (a : BitVec 25) (acc : Access)
  | rangePstraps (a : BitVec 25) (acc : Access)
  | rangeProm (a : BitVec 25) (acc : Access)
  | rangePme (a : BitVec 25) (acc : Access)
  | rangePgraph (a : BitVec 25) (acc : Access)
  | rangePvideo (a : BitVec 25) (acc : Access)
  | rangePramdac (a : BitVec 25) (acc : Access)
  | rangePramdacPalette (a : BitVec 25) (acc : Access)
  | rangeVram (a : BitVec 25) (acc : Access)
  | rangeUser (a : BitVec 25) (acc : Access)
  | rangeRamin (a : BitVec 25) (acc : Access)
  | rangeNone (a : BitVec 25) (acc : Access)
  -- REG: the register table (rules R7, R190)
  | pmcBoot (acc : Access)
  | pmcIntr (acc : Access)
  | pmcIntrEn (acc : Access)
  | pmcEnable (acc : Access)
  | pbusIntr (acc : Access)
  | pbusIntrEn (acc : Access)
  | pfifoIntr (acc : Access)
  | pfifoIntrEn (acc : Access)
  | ptimerIntr (acc : Access)
  | ptimerIntrEn (acc : Access)
  | ptimerNumerator (acc : Access)
  | ptimerDenominator (acc : Access)
  | ptimerTimeLo (acc : Access)
  | ptimerTimeHi (acc : Access)
  | ptimerAlarmLo (acc : Access)
  | ptimerAlarmHi (acc : Access)
  | pstrapsStraps (acc : Access)
  | pmeIntr (acc : Access)
  | pmeIntrEn (acc : Access)
  | pgraphIntr (acc : Access)
  | pgraphIntrEn (acc : Access)
  | pvideoIntr (acc : Access)
  | pvideoIntrEn (acc : Access)
  | pramdacMpll (acc : Access)
  | pramdacVpll (acc : Access)
  | palByte0 (acc : Access)
  | palByte1 (acc : Access)
  | palByte2 (acc : Access)
  | palByte3 (acc : Access)
  | unimpl (a : BitVec 25) (acc : Access)
  -- RMA: the shim's offset space (rules R103, R211); a read shows the lane, a write carries a byte
  | rmaRdSig (off : BitVec 2)
  | rmaRdZero (off : BitVec 5)
  | rmaRdPass (off : BitVec 5)
  | rmaWrAddr (off : BitVec 2) (v : Byte)
  | rmaWrData (off : BitVec 5) (v : Byte)
  -- METHOD: the dispatch cases of PGRAPH (rule R260)
  | mGeneric (cls : Word) (sub : Submission)
  | mBeta (sub : Submission)
  | mRop (sub : Submission)
  | mChroma (sub : Submission)
  | mPlane (sub : Submission)
  | mClip (sub : Submission)
  | mPattern (sub : Submission)
  | mRect (sub : Submission)
  | mPoint (sub : Submission)
  | mLine (sub : Submission)
  | mTri (sub : Submission)
  | mGditext (sub : Submission)
  | mM2mf (sub : Submission)
  | mSifm (sub : Submission)
  | mBlit (sub : Submission)
  | mImage (sub : Submission)
  | mUnknownClass (cls : Word) (sub : Submission)
  deriving DecidableEq, Repr

end Sys2Proof
end

