-- ==== Sys2Proof/WellFormed.lean ====
section
/-! DEFINITION. Which operands a decode case takes. The nineteen operations take every value of their
operands (rule R152: "total on every a and v"); a RANGE, UNIMPL, RMA or METHOD case takes the operands
that select it under the opcode table's numbers, which are REFCFG's (rule R109). -/

namespace Sys2Proof

/-- `T_GENERIC` as the opcode table's METHOD key is made with it (rule R109). -/
def keyTGeneric : Word := 0x105

/-- A method submission of the table's class rows: `method_id >= T_GENERIC`, in the 13 bits of REFCFG. -/
def Submission.classOk (sub : Submission) : Bool := decide (keyTGeneric ≤ sub.m) && decide (sub.m < 0x2000)

/-- The class ids that the table's `M_UNKNOWN_CLASS` rows list: those with no handler in REFCFG. -/
def unknownClassId (c : Word) : Bool := decide (c < 32) && !(refClassTab.any (fun p => p.1 == c))

/-- A masked, aligned address inside a bank's range that names no register (rule R192). -/
def unimplAddr (a : BitVec 25) : Bool :=
  decide (refAlign a.toNat = a.toNat) &&
  (match (rangeRow a).region with
   | some (.bank _) => true
   | _ => false) &&
  !(refRtab.any (fun e => e.addr == a.setWidth 32))

/-- The operands of an operation or decode case are ones it takes. -/
def wellFormed : Instr → Bool
  | .mrd8 _ | .mrd16 _ | .mrd32 _ | .mwr8 _ _ | .mwr16 _ _ | .mwr32 _ _ => true
  | .iord8 _ | .iowr8 _ _ | .cfgrd8 _ _ | .cfgwr8 _ _ _ | .lfbrd _ _ | .lfbwr _ _ => true
  | .tickPclk | .tickMclk _ | .method _ _ | .raise _ _ | .swiRaise | .reset | .rmaSetmode _ => true
  | .rangePmc a _ => decide (rangeRow a = .pmc)
  | .rangePbusPci a _ => decide (rangeRow a = .pbusPci)
  | .rangePbus a _ => decide (rangeRow a = .pbus)
  | .rangePfifo a _ => decide (rangeRow a = .pfifo)
  | .rangePtimer a _ => decide (rangeRow a = .ptimer)
  | .rangePfb a _ => decide (rangeRow a = .pfb)
  | .rangePstraps a _ => decide (rangeRow a = .pstraps)
  | .rangeProm a _ => decide (rangeRow a = .prom)
  | .rangePme a _ => decide (rangeRow a = .pme)
  | .rangePgraph a _ => decide (rangeRow a = .pgraph)
  | .rangePvideo a _ => decide (rangeRow a = .pvideo)
  | .rangePramdac a _ => decide (rangeRow a = .pramdac)
  | .rangePramdacPalette a _ => decide (rangeRow a = .palette)
  | .rangeVram a _ => decide (rangeRow a = .vram)
  | .rangeUser a _ => decide (rangeRow a = .user)
  | .rangeRamin a _ => decide (rangeRow a = .ramin)
  | .rangeNone a _ => decide (rangeRow a = .unmapped)
  | .pmcBoot _ | .pmcIntr _ | .pmcIntrEn _ | .pmcEnable _ => true
  | .pbusIntr _ | .pbusIntrEn _ | .pfifoIntr _ | .pfifoIntrEn _ | .ptimerIntr _ | .ptimerIntrEn _ => true
  | .ptimerNumerator _ | .ptimerDenominator _ | .ptimerTimeLo _ | .ptimerTimeHi _ => true
  | .ptimerAlarmLo _ | .ptimerAlarmHi _ | .pstrapsStraps _ => true
  | .pmeIntr _ | .pmeIntrEn _ | .pgraphIntr _ | .pgraphIntrEn _ | .pvideoIntr _ | .pvideoIntrEn _ => true
  | .pramdacMpll _ | .pramdacVpll _ | .palByte0 _ | .palByte1 _ | .palByte2 _ | .palByte3 _ => true
  | .unimpl a _ => unimplAddr a
  | .rmaRdSig _ => true
  | .rmaRdZero off => decide (4 ≤ off)
  | .rmaRdPass _ => true
  | .rmaWrAddr _ _ => true
  | .rmaWrData off _ => decide (4 ≤ off)
  | .mGeneric cls sub => decide (sub.m < keyTGeneric) && decide (cls < 32)
  | .mBeta sub | .mRop sub | .mChroma sub | .mPlane sub | .mClip sub | .mPattern sub | .mRect sub
  | .mPoint sub | .mLine sub | .mTri sub | .mGditext sub | .mM2mf sub | .mSifm sub | .mBlit sub
  | .mImage sub => sub.classOk
  | .mUnknownClass cls sub => sub.classOk && unknownClassId cls

end Sys2Proof
end

