-- ==== Sys2Proof/Decode.lean ====
section
/-! DEFINITION. Decoding a presented operation, total on every frame and refusing by name, and the
encoder. The keys are the opcode table's (rules R90, R109); where the operands stand above a key is
this model's own layout, since "no hardware signal carries" the table's codes (rule R90). -/

namespace Sys2Proof

/-! ### Field helpers -/

/-- The `n` bits of a word from bit `lo` up. -/
def bitsAt (n lo w : Nat) : BitVec n := BitVec.ofNat n (w / 2 ^ lo)

/-- An instruction of `len` bits: every higher bit of the word is 0. -/
def fits (len w : Nat) (i : Instr) : Except DecodeError Instr :=
  if w / 2 ^ len = 0 then .ok i else .error .excessBits

/-- The access operand from bit `lo` up: a direction byte (0 read, 1 write), then the written word. -/
def accessAt (lo w : Nat) (k : Access → Instr) : Except DecodeError Instr :=
  match w / 2 ^ lo % 256 with
  | 0 => fits (lo + 8) w (k .read)
  | 1 => fits (lo + 40) w (k (.write (bitsAt 32 (lo + 8) w)))
  | _ => .error .badOperand

/-- The submission operands from bit `lo` up (rule R94), `method_id` counted from `base`. -/
def submissionAt (base lo w : Nat) : Submission :=
  { ch := bitsAt 32 lo w
    sc := bitsAt 32 (lo + 32) w
    m := BitVec.ofNat 32 (base + w / 2 ^ (lo + 64) % 2 ^ 32)
    ctx := bitsAt 28 (lo + 96) w
    param := bitsAt 32 (lo + 124) w }

/-- The bank codes of `RAISE`. -/
def bankOfCode : Nat → Option IntrBank
  | 0 => some .pbus
  | 1 => some .pfifo
  | 2 => some .ptimer
  | 3 => some .pfb
  | 4 => some .pstraps
  | 5 => some .pme
  | 6 => some .pvideo
  | 7 => some .pramdac
  | 8 => some .pgraph
  | _ => none

/-- The inverse of `bankOfCode`. -/
def codeOfBank : IntrBank → Nat
  | .pbus => 0
  | .pfifo => 1
  | .ptimer => 2
  | .pfb => 3
  | .pstraps => 4
  | .pme => 5
  | .pvideo => 6
  | .pramdac => 7
  | .pgraph => 8

/-! ### OP: the nineteen codes of rule R90 -/

/-- Decode an `OP` word: the code in bits 7 to 0 (the table's five bits, bits 7 to 5 zero), the operands
from bit 8 up in the order of rule R90. -/
def decodeOp (w : Nat) : Except DecodeError Instr :=
  match w % 256 with
  | 0 => fits 40 w (.mrd8 (bitsAt 32 8 w))
  | 1 => fits 40 w (.mrd16 (bitsAt 32 8 w))
  | 2 => fits 40 w (.mrd32 (bitsAt 32 8 w))
  | 3 => fits 48 w (.mwr8 (bitsAt 32 8 w) (bitsAt 8 40 w))
  | 4 => fits 56 w (.mwr16 (bitsAt 32 8 w) (bitsAt 16 40 w))
  | 5 => fits 72 w (.mwr32 (bitsAt 32 8 w) (bitsAt 32 40 w))
  | 6 => fits 24 w (.iord8 (bitsAt 16 8 w))
  | 7 => fits 32 w (.iowr8 (bitsAt 16 8 w) (bitsAt 8 24 w))
  | 8 => fits 24 w (.cfgrd8 (bitsAt 8 8 w) (bitsAt 8 16 w))
  | 9 => fits 32 w (.cfgwr8 (bitsAt 8 8 w) (bitsAt 8 16 w) (bitsAt 8 24 w))
  | 10 =>
    match w / 2 ^ 40 % 256 with
    | 0 => fits 48 w (.lfbrd .b1 (bitsAt 32 8 w))
    | 1 => fits 48 w (.lfbrd .b2 (bitsAt 32 8 w))
    | 2 => fits 48 w (.lfbrd .b4 (bitsAt 32 8 w))
    | _ => .error .badOperand
  | 11 =>
    match w / 2 ^ 40 % 256 with
    | 0 => fits 56 w (.lfbwr (bitsAt 32 8 w) (.d1 (bitsAt 8 48 w)))
    | 1 => fits 64 w (.lfbwr (bitsAt 32 8 w) (.d2 (bitsAt 16 48 w)))
    | 2 => fits 80 w (.lfbwr (bitsAt 32 8 w) (.d4 (bitsAt 32 48 w)))
    | _ => .error .badOperand
  | 12 => fits 8 w .tickPclk
  | 13 => .ok (.tickMclk (w / 2 ^ 8))
  | 14 => fits 196 w (.method (bitsAt 32 8 w) (submissionAt 0 40 w))
  | 15 =>
    match bankOfCode (w / 2 ^ 8 % 256) with
    | some b => fits 48 w (.raise b (bitsAt 32 16 w))
    | none => .error .badOperand
  | 16 => fits 8 w .swiRaise
  | 17 => fits 8 w .reset
  | 18 => fits 16 w (.rmaSetmode (bitsAt 8 8 w))
  | _ => .error .reservedKey

/-! ### RANGE and REG: the 25-bit address keys of rule R109 -/

/-- The constructor of a RANGE row. -/
def rangeInstr (r : RangeRow) (a : BitVec 25) (acc : Access) : Instr :=
  match r with
  | .pmc => .rangePmc a acc
  | .pbusPci => .rangePbusPci a acc
  | .pbus => .rangePbus a acc
  | .pfifo => .rangePfifo a acc
  | .ptimer => .rangePtimer a acc
  | .pfb => .rangePfb a acc
  | .pstraps => .rangePstraps a acc
  | .prom => .rangeProm a acc
  | .pme => .rangePme a acc
  | .pgraph => .rangePgraph a acc
  | .pvideo => .rangePvideo a acc
  | .pramdac => .rangePramdac a acc
  | .palette => .rangePramdacPalette a acc
  | .vram => .rangeVram a acc
  | .user => .rangeUser a acc
  | .ramin => .rangeRamin a acc
  | .unmapped => .rangeNone a acc

/-- Decode a `RANGE` word: the address in bits 24 to 0, bits 31 to 25 zero, the access from bit 32 up. -/
def decodeRange (w : Nat) : Except DecodeError Instr :=
  if w % 2 ^ 32 < 2 ^ 25 then
    accessAt 32 w (rangeInstr (rangeRow (BitVec.ofNat 25 (w % 2 ^ 32))) (BitVec.ofNat 25 (w % 2 ^ 32)))
  else .error .reservedKey

/-- The REG rows of the opcode table: the address that is each row's key. -/
def regRows : List (Nat × (Access → Instr)) :=
  [(0x0000000, .pmcBoot),
   (0x0000100, .pmcIntr),
   (0x0000140, .pmcIntrEn),
   (0x0000200, .pmcEnable),
   (0x0001100, .pbusIntr),
   (0x0001140, .pbusIntrEn),
   (0x0002100, .pfifoIntr),
   (0x0002140, .pfifoIntrEn),
   (0x0009100, .ptimerIntr),
   (0x0009140, .ptimerIntrEn),
   (0x0009200, .ptimerNumerator),
   (0x0009210, .ptimerDenominator),
   (0x0009400, .ptimerTimeLo),
   (0x0009410, .ptimerTimeHi),
   (0x0009420, .ptimerAlarmLo),
   (0x0009430, .ptimerAlarmHi),
   (0x0101000, .pstrapsStraps),
   (0x0200100, .pmeIntr),
   (0x0200140, .pmeIntrEn),
   (0x0400100, .pgraphIntr),
   (0x0400140, .pgraphIntrEn),
   (0x0680100, .pvideoIntr),
   (0x0680140, .pvideoIntrEn),
   (0x0680504, .pramdacMpll),
   (0x0680508, .pramdacVpll),
   (0x06813C6, .palByte0),
   (0x06813C7, .palByte1),
   (0x06813C8, .palByte2),
   (0x06813C9, .palByte3)]

/-- Exact match of an address with the rows (rule R7: "the first match wins"). -/
def findReg (k : Nat) : List (Nat × (Access → Instr)) → Option (Access → Instr)
  | [] => none
  | (a, f) :: rest => if k = a then some f else findReg k rest

/-- Decode a `REG` word: the address in bits 24 to 0, bits 31 to 25 zero, the access from bit 32 up; an
address inside a bank's range that is no row's is the default row `UNIMPL`. -/
def decodeReg (w : Nat) : Except DecodeError Instr :=
  if w % 2 ^ 32 < 2 ^ 25 then
    match findReg (w % 2 ^ 32) regRows with
    | some f => accessAt 32 w f
    | none =>
      if unimplAddr (BitVec.ofNat 25 (w % 2 ^ 32)) then
        accessAt 32 w (.unimpl (BitVec.ofNat 25 (w % 2 ^ 32)))
      else .error .reservedKey
  else .error .reservedKey

/-! ### RMA: the 7-bit key of rule R109 -/

/-- Decode an `RMA` word: bit 6 the direction, bit 5 `mode[0]`, bits 4 to 0 the offset, bit 7 zero; a
write's byte in bits 15 to 8. A write row takes either value of the mode bit. -/
def decodeRma (w : Nat) : Except DecodeError Instr :=
  if w / 2 ^ 7 % 2 = 1 then .error .reservedKey
  else if w / 2 ^ 6 % 2 = 0 then
    if w / 2 ^ 5 % 2 = 1 then fits 8 w (.rmaRdPass (bitsAt 5 0 w))
    else if w % 32 < 4 then fits 8 w (.rmaRdSig (bitsAt 2 0 w))
    else fits 8 w (.rmaRdZero (bitsAt 5 0 w))
  else if w % 32 < 4 then fits 16 w (.rmaWrAddr (bitsAt 2 0 w) (bitsAt 8 8 w))
  else fits 16 w (.rmaWrData (bitsAt 5 0 w) (bitsAt 8 8 w))

/-! ### METHOD: the 6-bit key of rule R109 -/

/-- The constructor of a METHOD row with bit 5 clear, by class id (rules R9, R109). -/
def classInstr (cls : Nat) (sub : Submission) : Instr :=
  match cls with
  | 1 => .mBeta sub
  | 2 => .mRop sub
  | 3 => .mChroma sub
  | 4 => .mPlane sub
  | 5 => .mClip sub
  | 6 => .mPattern sub
  | 7 => .mRect sub
  | 8 => .mPoint sub
  | 9 => .mLine sub
  | 11 => .mTri sub
  | 12 => .mGditext sub
  | 13 => .mM2mf sub
  | 14 => .mSifm sub
  | 16 => .mBlit sub
  | 17 => .mImage sub
  | _ => .mUnknownClass (BitVec.ofNat 32 cls) sub

/-- Decode a `METHOD` word: bit 5 says `method_id < T_GENERIC`, bits 4 to 0 are the class id, bits 7 and
6 zero, the submission from bit 8 up. The method field of a class row counts from `T_GENERIC`, so
that every word of the row has a `method_id` of the row's range. -/
def decodeMethod (w : Nat) : Except DecodeError Instr :=
  if w % 256 < 32 then
    if keyTGeneric.toNat + w / 2 ^ 72 % 2 ^ 32 < 8192 then
      fits 164 w (classInstr (w % 256) (submissionAt keyTGeneric.toNat 8 w))
    else .error .badOperand
  else if w % 256 < 64 then
    if w / 2 ^ 72 % 2 ^ 32 < keyTGeneric.toNat then
      fits 164 w (.mGeneric (BitVec.ofNat 32 (w % 32)) (submissionAt 0 8 w))
    else .error .badOperand
  else .error .reservedKey

/-! ### The decoder -/

/-- The operation a frame presents, or why it presents none. -/
def decode (f : OpFrame) : Except DecodeError Instr :=
  match f.fmt with
  | .op => decodeOp f.word
  | .range => decodeRange f.word
  | .reg => decodeReg f.word
  | .rma => decodeRma f.word
  | .method => decodeMethod f.word

/-! ### The opcode table's words

The table's five formats have keys of their own (rule R109), and a table word does not say which format
it is of: 0 is `MRD8`, `RMA_RD_SIG` and `M_UNKNOWN_CLASS`, and as an address `PMC_BOOT` and `RANGE_PMC`.
A word of at most one byte is therefore taken as an operation code, else as a METHOD key, else as an
RMA key; a longer word as a register's address, else as an address range's. -/

/-- The first of the frames that decodes, or the last. -/
def firstDecodable : List OpFrame → OpFrame → OpFrame
  | [], last => last
  | f :: fs, last =>
    match decode f with
    | .ok _ => f
    | .error _ => firstDecodable fs last

/-- The frame that a word of the opcode table is read as. -/
def tableFrame (nbits w : Nat) : OpFrame :=
  if nbits ≤ 8 then
    firstDecodable [{ fmt := .op, word := w }, { fmt := .method, word := w }] { fmt := .rma, word := w }
  else
    match findReg (w % 2 ^ 32) regRows with
    | some _ => { fmt := .reg, word := w }
    | none => { fmt := .range, word := w }

/-- The instruction read from a word of the opcode table, all operand bits above the word zero. -/
def decodeTableWord (nbits w : Nat) : Option Instr :=
  match decode (tableFrame nbits w) with
  | .ok i => some i
  | .error _ => none

/-! ### The encoder -/

/-- An access operand: the direction byte and the written word above it. -/
def encAccess : Access → Nat
  | .read => 0
  | .write v => 1 + 2 ^ 8 * v.toNat

/-- The submission operands, `method_id` counted from `base`. -/
def encSubmission (base : Nat) (s : Submission) : Nat :=
  s.ch.toNat + 2 ^ 32 * s.sc.toNat + 2 ^ 64 * (s.m.toNat - base) + 2 ^ 96 * s.ctx.toNat +
    2 ^ 124 * s.param.toNat

/-- An `OP` frame: a code and the operands above it. -/
def opFrame (code operands : Nat) : OpFrame := { fmt := .op, word := code + 2 ^ 8 * operands }

/-- A `RANGE` frame. -/
def rangeFrame (a : BitVec 25) (acc : Access) : OpFrame :=
  { fmt := .range, word := a.toNat + 2 ^ 32 * encAccess acc }

/-- A `REG` frame. -/
def regFrame (a : Nat) (acc : Access) : OpFrame :=
  { fmt := .reg, word := a + 2 ^ 32 * encAccess acc }

/-- An `RMA` frame. -/
def rmaFrame (key v : Nat) : OpFrame := { fmt := .rma, word := key + 2 ^ 8 * v }

/-- A `METHOD` frame of a class row. -/
def classFrame (cls : Nat) (s : Submission) : OpFrame :=
  { fmt := .method, word := cls + 2 ^ 8 * encSubmission keyTGeneric.toNat s }

/-- The frame of an operation or decode case. -/
def encode : Instr → OpFrame
  | .mrd8 a => opFrame 0 a.toNat
  | .mrd16 a => opFrame 1 a.toNat
  | .mrd32 a => opFrame 2 a.toNat
  | .mwr8 a v => opFrame 3 (a.toNat + 2 ^ 32 * v.toNat)
  | .mwr16 a v => opFrame 4 (a.toNat + 2 ^ 32 * v.toNat)
  | .mwr32 a v => opFrame 5 (a.toNat + 2 ^ 32 * v.toNat)
  | .iord8 p => opFrame 6 p.toNat
  | .iowr8 p v => opFrame 7 (p.toNat + 2 ^ 16 * v.toNat)
  | .cfgrd8 fn off => opFrame 8 (fn.toNat + 2 ^ 8 * off.toNat)
  | .cfgwr8 fn off v => opFrame 9 (fn.toNat + 2 ^ 8 * off.toNat + 2 ^ 16 * v.toNat)
  | .lfbrd .b1 off => opFrame 10 off.toNat
  | .lfbrd .b2 off => opFrame 10 (off.toNat + 2 ^ 32 * 1)
  | .lfbrd .b4 off => opFrame 10 (off.toNat + 2 ^ 32 * 2)
  | .lfbwr off (.d1 v) => opFrame 11 (off.toNat + 2 ^ 40 * v.toNat)
  | .lfbwr off (.d2 v) => opFrame 11 (off.toNat + 2 ^ 32 * 1 + 2 ^ 40 * v.toNat)
  | .lfbwr off (.d4 v) => opFrame 11 (off.toNat + 2 ^ 32 * 2 + 2 ^ 40 * v.toNat)
  | .tickPclk => opFrame 12 0
  | .tickMclk elapsed => opFrame 13 elapsed
  | .method cls s => opFrame 14 (cls.toNat + 2 ^ 32 * encSubmission 0 s)
  | .raise b v => opFrame 15 (codeOfBank b + 2 ^ 8 * v.toNat)
  | .swiRaise => opFrame 16 0
  | .reset => opFrame 17 0
  | .rmaSetmode v => opFrame 18 v.toNat
  | .rangePmc a acc => rangeFrame a acc
  | .rangePbusPci a acc => rangeFrame a acc
  | .rangePbus a acc => rangeFrame a acc
  | .rangePfifo a acc => rangeFrame a acc
  | .rangePtimer a acc => rangeFrame a acc
  | .rangePfb a acc => rangeFrame a acc
  | .rangePstraps a acc => rangeFrame a acc
  | .rangeProm a acc => rangeFrame a acc
  | .rangePme a acc => rangeFrame a acc
  | .rangePgraph a acc => rangeFrame a acc
  | .rangePvideo a acc => rangeFrame a acc
  | .rangePramdac a acc => rangeFrame a acc
  | .rangePramdacPalette a acc => rangeFrame a acc
  | .rangeVram a acc => rangeFrame a acc
  | .rangeUser a acc => rangeFrame a acc
  | .rangeRamin a acc => rangeFrame a acc
  | .rangeNone a acc => rangeFrame a acc
  | .pmcBoot acc => regFrame 0x0000000 acc
  | .pmcIntr acc => regFrame 0x0000100 acc
  | .pmcIntrEn acc => regFrame 0x0000140 acc
  | .pmcEnable acc => regFrame 0x0000200 acc
  | .pbusIntr acc => regFrame 0x0001100 acc
  | .pbusIntrEn acc => regFrame 0x0001140 acc
  | .pfifoIntr acc => regFrame 0x0002100 acc
  | .pfifoIntrEn acc => regFrame 0x0002140 acc
  | .ptimerIntr acc => regFrame 0x0009100 acc
  | .ptimerIntrEn acc => regFrame 0x0009140 acc
  | .ptimerNumerator acc => regFrame 0x0009200 acc
  | .ptimerDenominator acc => regFrame 0x0009210 acc
  | .ptimerTimeLo acc => regFrame 0x0009400 acc
  | .ptimerTimeHi acc => regFrame 0x0009410 acc
  | .ptimerAlarmLo acc => regFrame 0x0009420 acc
  | .ptimerAlarmHi acc => regFrame 0x0009430 acc
  | .pstrapsStraps acc => regFrame 0x0101000 acc
  | .pmeIntr acc => regFrame 0x0200100 acc
  | .pmeIntrEn acc => regFrame 0x0200140 acc
  | .pgraphIntr acc => regFrame 0x0400100 acc
  | .pgraphIntrEn acc => regFrame 0x0400140 acc
  | .pvideoIntr acc => regFrame 0x0680100 acc
  | .pvideoIntrEn acc => regFrame 0x0680140 acc
  | .pramdacMpll acc => regFrame 0x0680504 acc
  | .pramdacVpll acc => regFrame 0x0680508 acc
  | .palByte0 acc => regFrame 0x06813C6 acc
  | .palByte1 acc => regFrame 0x06813C7 acc
  | .palByte2 acc => regFrame 0x06813C8 acc
  | .palByte3 acc => regFrame 0x06813C9 acc
  | .unimpl a acc => regFrame a.toNat acc
  | .rmaRdSig off => rmaFrame off.toNat 0
  | .rmaRdZero off => rmaFrame off.toNat 0
  | .rmaRdPass off => rmaFrame (0x20 + off.toNat) 0
  | .rmaWrAddr off v => rmaFrame (0x40 + off.toNat) v.toNat
  | .rmaWrData off v => rmaFrame (0x40 + off.toNat) v.toNat
  | .mGeneric cls s => { fmt := .method, word := 0x20 + cls.toNat + 2 ^ 8 * encSubmission 0 s }
  | .mBeta s => classFrame 0x01 s
  | .mRop s => classFrame 0x02 s
  | .mChroma s => classFrame 0x03 s
  | .mPlane s => classFrame 0x04 s
  | .mClip s => classFrame 0x05 s
  | .mPattern s => classFrame 0x06 s
  | .mRect s => classFrame 0x07 s
  | .mPoint s => classFrame 0x08 s
  | .mLine s => classFrame 0x09 s
  | .mTri s => classFrame 0x0B s
  | .mGditext s => classFrame 0x0C s
  | .mM2mf s => classFrame 0x0D s
  | .mSifm s => classFrame 0x0E s
  | .mBlit s => classFrame 0x10 s
  | .mImage s => classFrame 0x11 s
  | .mUnknownClass cls s => classFrame cls.toNat s

end Sys2Proof
end

