-- ==== Sys2Proof/Machine/ResetValues.lean ====
section
/-! DEFINITION. The reset values of the state that is not a plain 0 (rule R50). -/

namespace Sys2Proof.Machine

/-- A colour of all-zero fields (rule R41). -/
def zeroColor : Color := { a := 0, r := 0, g := 0, b := 0 }

/-- The reset value of the PGRAPH rendering state: "every field 0", `opaque` at its configuration-given
initial value (rule R41). -/
def resetPgraph : Pgraph :=
  { beta := 0, rop := 0, chroma := zeroColor, planeMask := 0, clipX := 0, clipY := 0, clipW := 0,
    clipH := 0, patShape := 0, patColor0 := zeroColor, patColor1 := zeroColor, patBitmap := 0,
    rectColor := zeroColor, rectX := Vector.replicate 16 0, rectY := Vector.replicate 16 0,
    blackBox := Config.blackBoxInit }

/-- The `reset` column of the register table for a `Plain` register (rule R24). -/
def plainReset (rtab : List RegEntry) (p : PlainReg) : Word :=
  match rtab with
  | [] => 0
  | e :: rest => if e.kind = .plain p then e.reset else plainReset rest p

/-- The added `Plain` cells with their reset values (rules R7, R24). -/
def extraReset (rtab : List RegEntry) : List (Word × Word) :=
  match rtab with
  | [] => []
  | e :: rest =>
    match e.kind with
    | .plain (.extra _) => (e.addr, e.reset) :: extraReset rest
    | _ => extraReset rest

/-- The PCI bytes after reset: the two ids little-endian, every other byte 0 (rule R43). -/
def resetPci (c : Cfg) : Vector Byte 256 :=
  (((Vector.replicate 256 (0 : Byte)).set 0 (c.pciVendorId.setWidth 8)).set 1
    ((c.pciVendorId >>> 8).setWidth 8) |>.set 2 (c.pciDeviceId.setWidth 8)).set 3
    ((c.pciDeviceId >>> 8).setWidth 8)

end Sys2Proof.Machine
end

