-- ==== Sys2Proof/Machine/State.lean ====
section
/-! DEFINITION. The state of the block (spec/10_state.md), the two ways a step can stop, and the state
after reset (rule R50). -/

namespace Sys2Proof.Machine

/-- The kinds of a diagnostic record (rule R321), in the order of their codes 0 to 7. -/
inductive DiagKind where
  | access | unmapped | unimplReg | anomalyIntr | anomalyStraps | irqSuppressed | fatalClass
  | unimplMethod
  deriving DecidableEq, Repr

/-- The `name` of a diagnostic record (rule R321): "", an entry's friendly name, "generic", a class name. -/
inductive DiagName where
  | none
  | reg (n : RegName)
  | generic
  | cls (h : Handler)
  deriving DecidableEq, Repr

/-- One record of `DIAG` (rule R47). -/
structure DiagRecord where
  kind : DiagKind
  addr : Word
  value : Word
  name : DiagName
  deriving DecidableEq, Repr

/-- One event of `EVENTS` (rule R48). -/
inductive Event where
  | notify (ctx ch sc m : Word)
  | speedChanged
  | userWrite (a v : Word)
  deriving DecidableEq, Repr

/-- A software timer (rule R38). -/
structure ClockTimer where
  armed : Bool
  period : Rat
  deriving DecidableEq, Repr

/-- What an operation hands back to its agent (rule R90, column "returns"). -/
inductive Reply where
  | nothing
  | u8 (v : Byte)
  | u16 (v : Half)
  | u32 (v : Word)
  deriving DecidableEq, Repr

/-- The state. The first group is the state the spec gives the block; the last group is the model's own:
the parameter record, the counters of draws, and the operation stream with the value handed back. -/
structure State where
  /-- `intr[b]`, the pending bits of the nine banks in the order of `IntrBank` (rule R25) -/
  intr : Vector Word 9
  /-- `intr_en[b]`, the enable bits of the nine banks (rule R25) -/
  intrEn : Vector Word 9
  /-- `PMC.intr` (rule R26) -/
  pmcIntr : Word
  /-- `PMC.intr_en` (rule R27) -/
  pmcIntrEn : Word
  /-- `PMC.enable`, the cell `plain[PMC_ENABLE]` (rule R28) -/
  pmcEnable : Word
  /-- `irq_line` (rule R29) -/
  irqLine : Bool
  /-- `fatal` (rule R30) -/
  fatal : Bool
  /-- `RMA.addr` (rule R31) -/
  rmaAddr : Word
  /-- `RMA.data` (rule R32) -/
  rmaData : Word
  /-- `RMA.mode` (rule R33) -/
  rmaMode : Byte
  /-- `PTIMER.num`, the cell `plain[PTIMER_NUMERATOR]` (rule R34) -/
  ptimerNum : Word
  /-- `PTIMER.den`, the cell `plain[PTIMER_DENOMINATOR]` (rule R34) -/
  ptimerDen : Word
  /-- `PTIMER.time` (rule R35) -/
  ptimerTime : DWord
  /-- `PTIMER.alarm` (rule R36) -/
  ptimerAlarm : DWord
  /-- `PRAMDAC.vpll` (rule R37) -/
  vpll : Word
  /-- `PRAMDAC.mpll` (rule R37) -/
  mpll : Word
  /-- `pclk_timer` (rule R38) -/
  pclk : ClockTimer
  /-- `mclk_timer` (rule R38) -/
  mclk : ClockTimer
  /-- `plain[PAL_BYTE0..3]` (rule R39) -/
  pal : Vector Byte 4
  /-- `PSTRAPS.straps` (rule R40) -/
  straps : Word
  /-- the cells of the `Plain` registers a configuration adds, by address (rule R24) -/
  extra : List (Word × Word)
  /-- the PGRAPH rendering state (rule R41) -/
  pg : Pgraph
  /-- `PGRAPH.notify_ctx` (rule R42) -/
  notifyCtx : Option Word
  /-- `PCI[0..255]` (rule R43) -/
  pci : Vector Byte 256
  /-- the bytes of `VRAM` written since the last RESET (rule R44) -/
  vram : Mem
  /-- the bytes of `RAMIN` written since the last RESET (rule R45) -/
  ramin : Mem
  /-- `DIAG` (rule R47) -/
  diag : List DiagRecord
  /-- `EVENTS` (rule R48) -/
  events : List Event
  /-- the parameter record `CFG` (rule R22): no operation writes it -/
  cfg : ValidCfg
  /-- how many RESETs there have been: which fresh draw an unwritten VRAM or RAMIN byte is -/
  epoch : Nat
  /-- how many draws of rules R151 and R213 have been made -/
  draws : Nat
  /-- `seq` of rule R21 -/
  seq : Nat
  /-- the operations presented and not yet taken (rule R21: the externally supplied operation stream) -/
  stream : List OpFrame
  /-- the value the last operation handed back to its agent -/
  reply : Reply
  deriving DecidableEq, Repr

/-- How the block stops. -/
inductive Fault where
  /-- raised by every operation but RESET while `fatal` is true: rule R30, "no operation other than
  `RESET` has a step". Safe: the spec gives no step either. -/
  | blockStopped
  deriving DecidableEq, Repr

/-- Why a step has no meaning. -/
inductive Refusal where
  /-- raised by `exec` for an operation that has no meaning yet. Safe: nothing is computed. -/
  | notModelled (mnemonic : String)
  deriving DecidableEq, Repr

/-- The outcome of an operation. -/
abbrev Outcome := Host.Outcome State Fault Refusal

/-- The state after the RESET of the given number under a configuration (rule R50). -/
def State.initial (c : ValidCfg) (epoch : Nat) : State :=
  { intr := Vector.replicate 9 0
    intrEn := Vector.replicate 9 0
    pmcIntr := 0
    pmcIntrEn := 0
    pmcEnable := plainReset c.1.rtab .pmcEnable
    irqLine := false
    fatal := false
    rmaAddr := 0
    rmaData := 0
    rmaMode := 0
    ptimerNum := plainReset c.1.rtab .ptimerNumerator
    ptimerDen := plainReset c.1.rtab .ptimerDenominator
    ptimerTime := 0
    ptimerAlarm := 0
    vpll := 0
    mpll := 0
    pclk := { armed := false, period := Config.restPeriod .pclk epoch }
    mclk := { armed := false, period := Config.restPeriod .mclk epoch }
    pal := #v[(plainReset c.1.rtab (.pal 0)).setWidth 8, (plainReset c.1.rtab (.pal 1)).setWidth 8,
      (plainReset c.1.rtab (.pal 2)).setWidth 8, (plainReset c.1.rtab (.pal 3)).setWidth 8]
    straps := c.1.strapsReset
    extra := extraReset c.1.rtab
    pg := resetPgraph
    notifyCtx := none
    pci := resetPci c.1
    vram := []
    ramin := []
    diag := []
    events := []
    cfg := c
    epoch := epoch
    draws := 0
    seq := 0
    stream := []
    reply := .nothing }

/-- The machine right after reset, in the configuration REFCFG-32 (rules R50, R351): no operation has
been presented. -/
def State.reset : State := State.initial refCfg32 0

end Sys2Proof.Machine
end

