-- ==== Sys2Proof/Machine/Ops.lean ====
section
/-! DEFINITION. The named operations over the state: the byte arrays (rules R12, R66), the outputs
(rules R14, R47, R48), the register files, the interrupt line and the fatal stop. -/

namespace Sys2Proof.Machine

/-! ### Byte lists -/

/-- The byte a list holds at an offset. -/
def memGet (m : Mem) (k : Nat) : Option Byte :=
  match m with
  | [] => none
  | c :: rest => if c.1 = k then some c.2 else memGet rest k

/-- Store a byte, keeping the offsets strictly rising. -/
def memSet (m : Mem) (k : Nat) (v : Byte) : Mem :=
  match m with
  | [] => [(k, v)]
  | c :: rest =>
    if k < c.1 then (k, v) :: c :: rest
    else if c.1 = k then (k, v) :: rest
    else c :: memSet rest k v

/-! ### Byte arrays -/

/-- The size of a byte array (rule R5). -/
def State.arraySize (s : State) (sp : Space) : Nat :=
  match sp with
  | .vram => s.cfg.1.vramSize
  | .ramin => s.cfg.1.raminSize
  | .prom => s.cfg.1.romSize

/-- The bytes a byte array's list holds. -/
def State.arrayMem (s : State) (sp : Space) : Mem :=
  match sp with
  | .vram => s.vram
  | .ramin => s.ramin
  | .prom => s.cfg.1.rom

/-- What an offset that is not listed reads as: for VRAM and RAMIN the draw of the last RESET (rule R350:
"a model takes them as a fresh `draw`"), for PROM the byte of the ROM image (rule R46). -/
def State.unlisted (s : State) (sp : Space) (k : Nat) : Byte :=
  match sp with
  | .vram => Config.ramByte .vram s.epoch k
  | .ramin => Config.ramByte .ramin s.epoch k
  | .prom => Config.romByte k

/-- The byte at an offset, reduced modulo the array's size (rule R66). -/
def State.byteAt (s : State) (sp : Space) (off : Nat) : Byte :=
  match memGet (s.arrayMem sp) (off % s.arraySize sp) with
  | some b => b
  | none => s.unlisted sp (off % s.arraySize sp)

/-- Store a byte at an offset, reduced modulo the array's size (rule R66); PROM is read-only (rule R46). -/
def State.setByte (s : State) (sp : Space) (off : Nat) (v : Byte) : State :=
  match sp with
  | .vram => { s with vram := memSet s.vram (off % s.arraySize .vram) v }
  | .ramin => { s with ramin := memSet s.ramin (off % s.arraySize .ramin) v }
  | .prom => s

/-- Byte `k` of a word, byte 0 the least significant (rule R61). -/
def byteOf (v : Word) (k : Nat) : Byte := (v >>> (8 * k)).setWidth 8

/-- Four bytes assembled little-endian (rules R12, R61). -/
def wordOf (b0 b1 b2 b3 : Byte) : Word := b3 ++ b2 ++ b1 ++ b0

/-- `MemRead(space, off, n)` (rule R12), zero-extended. -/
def State.memRead (s : State) (sp : Space) (off : Nat) (n : Width) : Word :=
  match n with
  | .b1 => wordOf (s.byteAt sp off) 0 0 0
  | .b2 => wordOf (s.byteAt sp off) (s.byteAt sp (off + 1)) 0 0
  | .b4 => wordOf (s.byteAt sp off) (s.byteAt sp (off + 1)) (s.byteAt sp (off + 2)) (s.byteAt sp (off + 3))

/-- `MemWrite(space, off, n, v)` (rule R12). Where an array is smaller than the access (a `RAMIN_SIZE` of 1 or 2)
two bytes fall on one offset and the spec gives no order; that they are stored lowest offset first, so that the
highest byte stands, is the model's DESIGN CHOICE (log entry 37). -/
def State.memWrite (s : State) (sp : Space) (off : Nat) (n : Width) (v : Word) : State :=
  match n with
  | .b1 => s.setByte sp off (byteOf v 0)
  | .b2 => (s.setByte sp off (byteOf v 0)).setByte sp (off + 1) (byteOf v 1)
  | .b4 =>
    (((s.setByte sp off (byteOf v 0)).setByte sp (off + 1) (byteOf v 1)).setByte sp (off + 2)
      (byteOf v 2)).setByte sp (off + 3) (byteOf v 3)

/-! ### Outputs -/

/-- `diag(kind, addr, value, name)` (rule R14): append one record to `DIAG`. -/
def State.addDiag (s : State) (k : DiagKind) (a v : Word) (n : DiagName) : State :=
  { s with diag := s.diag ++ [{ kind := k, addr := a, value := v, name := n }] }

/-- `emit E(args)` (rule R14): append one event to `EVENTS`. -/
def State.addEvent (s : State) (e : Event) : State := { s with events := s.events ++ [e] }

/-- `return v` (rule R13): the value handed back to the agent. -/
def State.answer (s : State) (r : Reply) : State := { s with reply := r }

/-- One draw has been made (rule R15). -/
def State.drawn (s : State) : State := { s with draws := s.draws + 1 }

/-! ### Register files -/

/-- The place of a bank in the two pair files. -/
def bankIdx : IntrBank → Fin 9
  | .pbus => 0
  | .pfifo => 1
  | .ptimer => 2
  | .pfb => 3
  | .pstraps => 4
  | .pme => 5
  | .pvideo => 6
  | .pramdac => 7
  | .pgraph => 8

/-- `intr[b]` (rule R25). -/
def State.intrOf (s : State) (b : IntrBank) : Word := s.intr[bankIdx b]

/-- `intr_en[b]` (rule R25). -/
def State.intrEnOf (s : State) (b : IntrBank) : Word := s.intrEn[bankIdx b]

/-- `intr[b] <- v`. -/
def State.setIntr (s : State) (b : IntrBank) (v : Word) : State :=
  { s with intr := s.intr.set (bankIdx b) v }

/-- `intr_en[b] <- v`. -/
def State.setIntrEn (s : State) (b : IntrBank) (v : Word) : State :=
  { s with intrEn := s.intrEn.set (bankIdx b) v }

/-- `PCI[off]` (rule R43). -/
def State.pciByte (s : State) (off : Byte) : Byte := s.pci[off.toNat]'off.isLt

/-- `PCI[off] <- v`. -/
def State.setPci (s : State) (off v : Byte) : State := { s with pci := s.pci.set off.toNat v off.isLt }

/-- The cell of an added `Plain` register (rule R24). -/
def extraGet (cells : List (Word × Word)) (a : Word) : Word :=
  match cells with
  | [] => 0
  | c :: rest => if c.1 = a then c.2 else extraGet rest a

/-- Store into the cell of an added `Plain` register (rule R24). -/
def extraSet (cells : List (Word × Word)) (a v : Word) : List (Word × Word) :=
  match cells with
  | [] => [(a, v)]
  | c :: rest => if c.1 = a then (a, v) :: rest else c :: extraSet rest a v

/-- `plain[a]` of the `Plain` register `p` at address `a`, zero-extended (rules R24, R190). -/
def State.plainGet (s : State) (p : PlainReg) (a : Word) : Word :=
  match p with
  | .pmcEnable => s.pmcEnable
  | .ptimerNumerator => s.ptimerNum
  | .ptimerDenominator => s.ptimerDen
  | .pal k => s.pal[k.toNat].setWidth 32
  | .extra _ => extraGet s.extra a

/-- `plain[a] <- v` of the `Plain` register `p` at address `a` (rules R24, R190); a palette cell is 8 bits. -/
def State.plainSet (s : State) (p : PlainReg) (a v : Word) : State :=
  match p with
  | .pmcEnable => { s with pmcEnable := v }
  | .ptimerNumerator => { s with ptimerNum := v }
  | .ptimerDenominator => { s with ptimerDen := v }
  | .pal k => { s with pal := s.pal.set k.toNat (v.setWidth 8) }
  | .extra _ => { s with extra := extraSet s.extra a v }

/-! ### The interrupt line and the fatal stop

Rule R329: what stands for trap entry is `irq_line <- true`; "it saves no state, switches no mode,
changes no mask, has no vector table and no base register, and transfers no control". Rule R330: there
is no return operation; the line falls by a recompute. -/

/-- The interrupt line's level (rules R329, R330). -/
def State.setLine (s : State) (level : Bool) : State := { s with irqLine := level }

/-- `raise FatalUnknownClass(class_id)` (rules R14, R264): the sticky stop. -/
def State.raiseFatal (s : State) : State := { s with fatal := true }

/-- An operation that completes with a reply. While `fatal` is true it has no step (rule R30). -/
def complete (s : State) (t : State) (r : Reply) : Outcome :=
  if s.fatal then .fault .blockStopped else .next (t.answer r)

/-! ### The operation stream (rule R21) -/

/-- The next operation presented, if there is one. -/
def State.nextFrame (s : State) : Option OpFrame := s.stream.head?

/-- The next operation has been taken: "every operation advances it by exactly 1" (rule R21). -/
def State.taken (s : State) : State := { s with stream := s.stream.tail, seq := s.seq + 1 }

/-- What was presented is no operation of the block: it is gone and nothing else has happened. -/
def State.passedOver (s : State) : State := { s with stream := s.stream.tail }

/-- An operation is presented next. -/
def State.present (s : State) (f : OpFrame) : State := { s with stream := f :: s.stream }

end Sys2Proof.Machine
end

