-- ==== Sys2Proof/Machine/Operands.lean ====
section
/-! DEFINITION. Operand assembly, packed formats and address formation (spec/30_encoding.md sections 2
and 3): rules R98, R99, R102 to R105, R108, R131, R133, R142, R143, R211. -/

namespace Sys2Proof.Machine

/-! ### Addresses -/

/-- `a_in & (2^ADDR_BITS - 1)` (rule R98). -/
def maskAddr (c : Cfg) (a : Word) : Word := a &&& BitVec.ofNat 32 (2 ^ c.addrBits - 1)

/-- `Align(a_in)` (rule R131). -/
def alignAddr (c : Cfg) (a : Word) : Word :=
  if c.inByteWindow (maskAddr c a) then maskAddr c a else maskAddr c a &&& ~~~(3 : Word)

/-- The first `AMAP` entry that holds an address, in priority order (rule R133). -/
def findRegion (amap : List AmapEntry) (a : Word) : Option Region :=
  match amap with
  | [] => none
  | e :: rest => if e.range.has a then some e.region else findRegion rest a

/-- `Target(a)` (rule R133): the RMA window first, then `AMAP` in priority order, else unmapped. -/
def targetOf (c : Cfg) (a : Word) : Target :=
  if (match c.rmaMmioWindow with | some r => r.has a | none => false) then .rmaMmio
  else
    match findRegion c.amap a with
    | some r => .region r
    | none => .unmapped

/-- `lo(t)` (rules R135, R136, R385). Where a configuration gives a target two ranges the spec does not say
whose low end it is; that it is the first listed one's, for an address in the second too, is the model's DESIGN
CHOICE (log entry 33). -/
def regionLo (amap : List AmapEntry) (r : Region) : Word :=
  match amap with
  | [] => 0
  | e :: rest => if e.region = r then e.range.lo else regionLo rest r

/-- `a - lo(t)`, an offset into the target's byte array or the PCI bytes. -/
def regionOff (c : Cfg) (r : Region) (a : Word) : Nat := (a - regionLo c.amap r).toNat

/-- `lookup(RTAB, a)` (rule R190): the first entry whose address equals `a`. -/
def findEntry (rtab : List RegEntry) (a : Word) : Option RegEntry :=
  match rtab with
  | [] => none
  | e :: rest => if e.addr = a then some e else findEntry rest a

/-- The entry of a named register. Rule R195: the entries named in rule R7 are all present, so that in a
valid configuration the default is never taken for one of them. -/
def entryOf (rtab : List RegEntry) (k : RegKind) (n : RegName) : RegEntry :=
  match rtab with
  | [] => { addr := 0, bank := .pmc, kind := k, mask := 0xFFFFFFFF, reset := 0 }
  | e :: rest => if e.name = n then e else entryOf rest k n

/-- The entry of a `Plain` register. -/
def plainEntry (c : Cfg) (p : PlainReg) : RegEntry := entryOf c.rtab (.plain p) (.plain p)

/-- The entry of a `Computed` register. -/
def computedEntry (c : Cfg) (r : ComputedReg) : RegEntry := entryOf c.rtab (.computed r) (.computed r)

/-- The entry of `PMC_BOOT`. -/
def bootEntry (c : Cfg) : RegEntry := entryOf c.rtab (.readOnly c.pmcBootValue) .pmcBoot

/-! ### Byte windows (rules R132, R140, R144) -/

/-- How many bytes an access at an address as presented touches: one inside a byte window (rule R144), else
four. Rule R131: the test is made once, on the unaligned address, and not repeated on the aligned one. -/
def accessWidth (c : Cfg) (a : Word) : Width := if c.inByteWindow (maskAddr c a) then .b1 else .b4

/-- The datum of an access of a width: its low bytes, zero-extended (rules R140, R144). -/
def accessData (n : Width) (v : Word) : Word :=
  match n with
  | .b1 => v &&& 0xFF
  | .b2 => v &&& 0xFFFF
  | .b4 => v

/-! ### Narrow accesses (rules R64, R142, R143) -/

/-- `8 * a[1:0]`. -/
def laneShift (a : Word) : Nat := 8 * (a &&& 3).toNat

/-- `(d >> (8 * a[1:0]))[7:0]`. -/
def sub8 (a d : Word) : Byte := (d >>> laneShift a).setWidth 8

/-- `(d >> (8 * a[1:0]))[15:0]`: bits shifted in from above bit 31 are 0. -/
def sub16 (a d : Word) : Half := (d >>> laneShift a).setWidth 16

/-- `(d & ~(0xFF << s)) | (zext_32(v) << s)`, `s = 8 * a[1:0]`. -/
def merge8 (a d : Word) (v : Byte) : Word :=
  (d &&& ~~~((0x000000FF : Word) <<< laneShift a)) ||| (v.setWidth 32 <<< laneShift a)

/-- `(d & ~(0xFFFF << s)) | (zext_32(v) << s)`: bits shifted past bit 31 are lost. -/
def merge16 (a d : Word) (v : Half) : Word :=
  (d &&& ~~~((0x0000FFFF : Word) <<< laneShift a)) ||| (v.setWidth 32 <<< laneShift a)

/-- Replace byte lane `k` of an accumulator, the other lanes kept (rules R108, R216, R217). -/
def setLane (w : Word) (k : Nat) (v : Byte) : Word :=
  (w &&& ~~~((0x000000FF : Word) <<< (8 * k))) ||| (v.setWidth 32 <<< (8 * k))

/-! ### RMA offsets (rules R102, R103, R211) -/

/-- `mode[0]` (rule R102). -/
def modeLow (m : Byte) : Bool := m.getLsbD 0

/-- `sel = (mode & (MODE_MAX - 1)) << 1` (rule R211), a natural number with no wrap (rule R380). -/
def rmaSel (c : Cfg) (m : Byte) : Nat := (m &&& (c.modeMax - 1)).toNat * 2

/-- A port is one of the four RMA ports (rule R92). -/
def isRmaPort (c : Cfg) (port : Half) : Bool :=
  decide (c.rmaPortBase.toNat ≤ port.toNat) && decide (port.toNat ≤ c.rmaPortBase.toNat + 3)

/-- `off = sel + lane`, `lane = port - RMA_PORT_BASE` (rule R211), a natural number (rule R380). -/
def rmaOff (c : Cfg) (m : Byte) (port : Half) : Nat := rmaSel c m + (port.toNat - c.rmaPortBase.toNat)

/-- `RMA_SIG[off]` (rule R214). -/
def sigByte (sig : Bytes4) (k : Nat) : Byte :=
  match k with
  | 0 => sig.b0
  | 1 => sig.b1
  | 2 => sig.b2
  | _ => sig.b3

/-! ### Method submissions (rules R5, R94) -/

/-- The low `w` bits of an operand. -/
def lowBits (w : Nat) (v : Word) : Word := v &&& BitVec.ofNat 32 (2 ^ w - 1)

/-- The tuple as the configuration's widths `W_CHAN`, `W_SUBCHAN` and `W_METHOD` give it: a bit above a width
is no bit of the operand (log entry 29). -/
def narrowSub (c : Cfg) (sub : Submission) : Submission :=
  { sub with ch := lowBits c.wChan sub.ch, sc := lowBits c.wSubchan sub.sc, m := lowBits c.wMethod sub.m }

/-- The class id as the configuration's `W_CLASS` gives it. -/
def narrowClass (c : Cfg) (cls : Word) : Word := lowBits c.wClass cls

/-! ### Packed formats -/

/-- `w[hi:lo]` as an unsigned number (rule R10). -/
def fieldOf (w : Word) (hi lo : Nat) : Nat := w.toNat / 2 ^ lo % 2 ^ (hi - lo + 1)

/-- Word `i` of a grobj. -/
def grobjWord (g : Grobj) (i : BitVec 2) : Word :=
  match i.toNat with
  | 0 => g.g0
  | 1 => g.g1
  | 2 => g.g2
  | _ => g.g3

/-- `chroma_en(g)` (rule R104). -/
def chromaEn (c : Cfg) (g : Grobj) : Bool :=
  (grobjWord g c.grobjChromaEn.word).getLsbD c.grobjChromaEn.bit

/-- `fmt(g)` (rule R104). -/
def grobjFmt (c : Cfg) (g : Grobj) : BitVec 3 :=
  BitVec.ofNat 3 (fieldOf (grobjWord g c.grobjFmt.word) c.grobjFmt.hi c.grobjFmt.lo)

/-- `param[15:0]`: x or width (rule R105). -/
def paramX (p : Word) : Half := p.setWidth 16

/-- `param[31:16]`: y or height (rule R105). -/
def paramY (p : Word) : Half := (p >>> 16).setWidth 16

end Sys2Proof.Machine
end

