-- ==== Sys2Proof/Machine/Flags.lean ====
section
/-! DEFINITION. The flags of the block (rule R30): the aggregate pending mask, its enables and the line,
all computed by `Recompute` (rule R176). -/

namespace Sys2Proof.Machine

/-- `PMC_SW_BIT`, bit 31 (rule R5). -/
def swBit : Word := 0x80000000

/-- The nine banks with a pair. -/
def allIntrBanks : List IntrBank := [.pbus, .pfifo, .ptimer, .pfb, .pstraps, .pme, .pvideo, .pramdac, .pgraph]

/-- `PMC_BIT[b]` (rule R8). -/
def pmcBitOf (routing : List (IntrBank × Nat)) (b : IntrBank) : Option Nat :=
  match routing with
  | [] => none
  | p :: rest => if p.1 = b then some p.2 else pmcBitOf rest b

/-- `(intr[b] & intr_en[b]) != 0` (rule R176). -/
def State.bankPending (s : State) (b : IntrBank) : Bool := decide (s.intrOf b &&& s.intrEnOf b ≠ 0)

/-- The aggregate bit a bank contributes. -/
def State.bankBit (s : State) (b : IntrBank) : Word :=
  match pmcBitOf s.cfg.1.pmcBit b with
  | some k => if s.bankPending b then (1 : Word) <<< k else 0
  | none => 0

/-- The hardware-origin bits: the OR of the banks' bits. -/
def State.hwBits (s : State) : Word := allIntrBanks.foldr (fun b acc => s.bankBit b ||| acc) 0

/-- The new aggregate: bit 31 kept, every other bit from the banks (rule R176). -/
def State.aggregate (s : State) : Word := (s.pmcIntr &&& swBit) ||| s.hwBits

/-- Bit `k` of a word. -/
def bitOf (w : Word) (k : Nat) : Bool := w.getLsbD k

/-- `hw or sw` of rule R176: a pending kind whose own enable bit is set. -/
def lineWanted (c : Cfg) (agg en : Word) : Bool :=
  (decide (agg &&& ~~~swBit ≠ 0) && bitOf en c.pmcEnHwBit) ||
  (bitOf agg 31 && bitOf en c.pmcEnSwBit)

/-- `Recompute(send_now)` (rule R176); its value is `PMC.intr` of the state it gives. -/
def recompute (sendNow : Bool) (s : State) : State :=
  let t := { s with pmcIntr := s.aggregate }
  if t.pmcIntrEn = 0 then t.setLine false
  else if !sendNow then t
  else if t.pmcIntr = 0 then t.setLine false
  else if lineWanted t.cfg.1 t.pmcIntr t.pmcIntrEn then t.setLine true
  else t.addDiag .irqSuppressed (computedEntry t.cfg.1 .pmcIntr).addr t.pmcIntr (.reg (.computed .pmcIntr))

/-- `EN_MASK` (rule R170). -/
def enMask (c : Cfg) : Word := ((1 : Word) <<< c.pmcEnHwBit) ||| ((1 : Word) <<< c.pmcEnSwBit)

/-- The write of `PMC_INTR` (rule R173): write-1-to-clear, with the anomaly record. -/
def writePmcIntr (v : Word) (s : State) : State :=
  let t :=
    if v &&& ~~~swBit ≠ 0 ∧ v &&& ~~~swBit &&& s.pmcIntr = 0 then
      s.addDiag .anomalyIntr (computedEntry s.cfg.1 .pmcIntr).addr v (.reg (.computed .pmcIntr))
    else s
  recompute true { t with pmcIntr := t.pmcIntr &&& ~~~v }

/-- The write of `PMC_INTR_EN` (rule R174). -/
def writePmcIntrEn (v : Word) (s : State) : State :=
  recompute true { s with pmcIntrEn := v &&& enMask s.cfg.1 }

/-- The write of `<bank>_INTR` (rule R193): write-1-to-clear. -/
def writeBankIntr (b : IntrBank) (v : Word) (s : State) : State :=
  recompute true (s.setIntr b (s.intrOf b &&& ~~~v))

/-- The write of `<bank>_INTR_EN` (rule R194). -/
def writeBankIntrEn (b : IntrBank) (v : Word) (s : State) : State :=
  recompute true (s.setIntrEn b v)

/-- Bank `b` sets pending bits and the aggregator runs (rules R178, R243). -/
def raiseBits (b : IntrBank) (bits : Word) (s : State) : State :=
  recompute true (s.setIntr b (s.intrOf b ||| bits))

/-- The software-origin bit is set and the aggregator runs (rule R179). -/
def raiseSoftware (s : State) : State :=
  recompute true { s with pmcIntr := s.pmcIntr ||| swBit }

end Sys2Proof.Machine
end

