-- ==== Sys2Proof/Machine/Clocks.lean ====
section
/-! DEFINITION. Clock synthesis and PTIMER (spec/44_clocks.md): `Synth`, the divider registers, the two
expiries, `PtimerTick`. All arithmetic is exact (rule R382). -/

namespace Sys2Proof.Machine

/-- `max(field, 1)` (rule R230). -/
def clampOne (n : Nat) : Nat := if n = 0 then 1 else n

/-- `frequency = CRYSTAL_HZ * N / (M << P)`, M and N clamped to 1 inside the computation (rule R230). -/
def synthFreq (c : Cfg) (w : Word) : Rat :=
  c.crystalHz * ((clampOne (fieldOf w c.pllN.hi c.pllN.lo) : Nat) : Rat) /
    ((clampOne (fieldOf w c.pllM.hi c.pllM.lo) * 2 ^ fieldOf w c.pllP.hi c.pllP.lo : Nat) : Rat)

/-- `period_us = 1000000 * FIX_QUOTIENT / freq` (rule R230). -/
def synthPeriod (c : Cfg) (w : Word) : Rat := 1000000 * c.fixQuotient / synthFreq c w

/-- The write of `PRAMDAC_VPLL` (rule R231). -/
def writeVpll (v : Word) (s : State) : State :=
  { s with vpll := v, pclk := { armed := true, period := synthPeriod s.cfg.1 v } }.addEvent .speedChanged

/-- The write of `PRAMDAC_MPLL` (rule R232). -/
def writeMpll (v : Word) (s : State) : State :=
  { s with mpll := v, mclk := { armed := true, period := synthPeriod s.cfg.1 v } }

/-- The low half of a 64-bit register (rule R241). -/
def loHalf (t : DWord) : Word := t.setWidth 32

/-- The high half of a 64-bit register (rule R241). -/
def hiHalf (t : DWord) : Word := (t >>> 32).setWidth 32

/-- A write of a low half ORs new bits in (rule R241). -/
def orLo (t : DWord) (v : Word) : DWord := t ||| v.setWidth 64

/-- A write of a high half ORs new bits in (rule R241). -/
def orHi (t : DWord) (v : Word) : DWord := t ||| (v.setWidth 64 <<< 32)

/-- `PtimerTick(elapsed)` (rule R243). -/
def ptimerTick (elapsed : Nat) (s : State) : State :=
  if s.ptimerNum = 0 ∨ s.ptimerDen = 0 then s
  else
    let delta := elapsed * s.ptimerNum.toNat / s.ptimerDen.toNat
    let t := { s with ptimerTime := s.ptimerTime + BitVec.ofNat 64 delta }
    if t.ptimerAlarm ≤ t.ptimerTime then raiseBits .ptimer ((1 : Word) <<< t.cfg.1.ptimerAlarmBit) t else t

/-- The expiry of the pixel-clock timer: it re-arms itself and has no other effect (rule R233). -/
def pclkExpiry (s : State) : State :=
  if s.pclk.armed then { s with pclk := { s.pclk with armed := true } } else s

/-- The expiry of the memory-clock timer: it re-arms itself and advances PTIMER (rule R234). -/
def mclkExpiry (elapsed : Nat) (s : State) : State :=
  if s.mclk.armed then ptimerTick elapsed { s with mclk := { s.mclk with armed := true } } else s

end Sys2Proof.Machine
end

