-- ==== Sys2Proof/Machine/Banks.lean ====
section
/-! DEFINITION. The register-bank dispatcher and the register table (spec/42_banks.md): `BankRead`,
`BankWrite`, the three kinds of register. -/

namespace Sys2Proof.Machine

/-- The read pseudocode of a `Computed` register: the state after it, and the value. -/
def computedRead (r : ComputedReg) (s : State) : State × Word :=
  match r with
  | .pmcIntr => (recompute false s, (recompute false s).pmcIntr)
  | .pmcIntrEn => (s, s.pmcIntrEn)
  | .bankIntr b => (s, s.intrOf b)
  | .bankIntrEn b => (s, s.intrEnOf b)
  | .timeLo => (s, loHalf s.ptimerTime)
  | .timeHi => (s, hiHalf s.ptimerTime)
  | .alarmLo => (s, loHalf s.ptimerAlarm)
  | .alarmHi => (s, hiHalf s.ptimerAlarm)
  | .straps => (s, s.straps)
  | .mpll => (s, s.mpll)
  | .vpll => (s, s.vpll)

/-- The write of the straps at address `a` (rule R196). -/
def writeStraps (a v : Word) (s : State) : State :=
  if s.cfg.1.strapOverwrite then { s with straps := v }
  else s.addDiag .anomalyStraps a v (.reg (.computed .straps))

/-- The write pseudocode of a `Computed` register at address `a`. -/
def computedWrite (r : ComputedReg) (a v : Word) (s : State) : State :=
  match r with
  | .pmcIntr => writePmcIntr v s
  | .pmcIntrEn => writePmcIntrEn v s
  | .bankIntr b => writeBankIntr b v s
  | .bankIntrEn b => writeBankIntrEn b v s
  | .timeLo => { s with ptimerTime := orLo s.ptimerTime v }
  | .timeHi => { s with ptimerTime := orHi s.ptimerTime v }
  | .alarmLo => { s with ptimerAlarm := orLo s.ptimerAlarm v }
  | .alarmHi => { s with ptimerAlarm := orHi s.ptimerAlarm v }
  | .straps => writeStraps a v s
  | .mpll => writeMpll v s
  | .vpll => writeVpll v s

/-- The read of a register by its kind (rules R190, R191, R171), before the `ACCESS` record. -/
def kindRead (e : RegEntry) (s : State) : State × Word :=
  match e.kind with
  | .plain p => (s, s.plainGet p e.addr &&& e.mask)
  | .readOnly c => (s, c)
  | .computed r => computedRead r s

/-- The write of a register by its kind (rules R190, R191, R171), before the `ACCESS` record. -/
def kindWrite (e : RegEntry) (v : Word) (s : State) : State :=
  match e.kind with
  | .plain p => s.plainSet p e.addr (v &&& e.mask)
  | .readOnly _ => s
  | .computed r => computedWrite r e.addr v s

/-- A palette byte, which is an 8-bit entry wherever it stands (rules R24, R245; log entry 12). -/
def paletteEntry (e : RegEntry) : Bool :=
  match e.kind with
  | .plain (.pal _) => true
  | _ => false

/-- The datum of an access of a width to an entry: on a palette byte, and in an access made inside a byte
window, the byte zero-extended (rules R140, R144, R190). That a register wider than a byte takes such a byte as
its whole value, zero above bit 7, is the model's (log entries 12 and 32). -/
def entryData (n : Width) (e : RegEntry) (v : Word) : Word :=
  if paletteEntry e then v &&& 0xFF else accessData n v

/-- The value a read of an entry returns (rule R190). -/
def entryValue (n : Width) (e : RegEntry) (s : State) : Word := entryData n e (kindRead e s).2

/-- The read of a register-table entry, with its `ACCESS` record appended last (rule R190). -/
def entryRead (n : Width) (e : RegEntry) (s : State) : State × Word :=
  ((kindRead e s).1.addDiag .access e.addr (entryValue n e s) (.reg e.name), entryValue n e s)

/-- The write of a register-table entry, with its `ACCESS` record appended last (rule R190). -/
def entryWrite (n : Width) (e : RegEntry) (v : Word) (s : State) : State :=
  (kindWrite e (entryData n e v) s).addDiag .access e.addr (entryData n e v) (.reg e.name)

/-- The read of an unimplemented register: 0 and a record (rule R192). -/
def unimplRead (a : Word) (s : State) : State × Word := (s.addDiag .unimplReg a 0 .none, 0)

/-- The write of an unimplemented register: a record only (rule R192). -/
def unimplWrite (a v : Word) (s : State) : State := s.addDiag .unimplReg a v .none

/-- `BankRead(b, a)` for an access of a width (rule R190). -/
def bankRead (n : Width) (a : Word) (s : State) : State × Word :=
  match findEntry s.cfg.1.rtab a with
  | none => unimplRead a s
  | some e => entryRead n e s

/-- `BankWrite(b, a, v)` for an access of a width (rule R190). -/
def bankWrite (n : Width) (a v : Word) (s : State) : State :=
  match findEntry s.cfg.1.rtab a with
  | none => unimplWrite a v s
  | some e => entryWrite n e v s

end Sys2Proof.Machine
end

