-- ==== Sys2Proof/Machine/Pci.lean ====
section
/-! DEFINITION. The PCI configuration bytes, their MMIO mirror, the derived mapping and the routing of a
host memory access (spec/46_pci_lfb.md, rule R72). -/

namespace Sys2Proof.Machine

/-- `MMIO_SIZE = 2^ADDR_BITS` (rule R5). -/
def mmioSize (c : Cfg) : Nat := 2 ^ c.addrBits

/-- `byte(m, k)`: bits `[8k+7 : 8k]` of `m` (rule R302). -/
def byteOfNat (m k : Nat) : Byte := BitVec.ofNat 8 (m / 2 ^ (8 * k))

/-- What `CfgWrite(off, v)` stores at `off` above the ids: the byte itself, less the hardwired 0 bits of a
BAR (rule R302). -/
def cfgStored (c : Cfg) (off v : Byte) : Byte :=
  if 0x10 ≤ off ∧ off ≤ 0x13 then v &&& ~~~byteOfNat (mmioSize c - 1) (off.toNat - 0x10)
  else if 0x14 ≤ off ∧ off ≤ 0x17 then v &&& ~~~byteOfNat (c.vramSize - 1) (off.toNat - 0x14)
  else v

/-- `CfgWrite(off, v)` (rule R302). -/
def cfgWrite (off v : Byte) (s : State) : State :=
  if off ≤ 0x03 then s else s.setPci off (cfgStored s.cfg.1 off v)

/-- `CfgRead(off)` (rule R301). -/
def cfgRead (off : Byte) (s : State) : Byte := s.pciByte off

/-- The configuration offset of a mirror address, reduced modulo 256 (rule R306). Rules R145 and R306 define
the mirror for a multiple of 4; where a configuration gives the range a low end that is none, the offset is
taken as it comes and the four bytes wrap modulo 256 (DESIGN CHOICE, log entry 34). -/
def mirrorOff (c : Cfg) (a : Word) : Byte := BitVec.ofNat 8 (regionOff c .pbusPci a)

/-- `PciMirrorRead(o)` (rule R306). -/
def mirrorRead (o : Byte) (s : State) : Word :=
  wordOf (cfgRead o s) (cfgRead (o + 1) s) (cfgRead (o + 2) s) (cfgRead (o + 3) s)

/-- `PciMirrorWrite(o, v)` (rule R306). -/
def mirrorWrite (o : Byte) (v : Word) (s : State) : State :=
  cfgWrite (o + 3) (byteOf v 3) (cfgWrite (o + 2) (byteOf v 2) (cfgWrite (o + 1) (byteOf v 1)
    (cfgWrite o (byteOf v 0) s)))

/-! ### The derived mapping state (rule R305) -/

/-- `map_mmio` (rule R305): the memory-space enable, bit 1 of the command register. -/
def mapMmio (s : State) : Bool := (s.pciByte 0x04).getLsbD 1

/-- `map_lfb` (rule R305): the same bit. -/
def mapLfb (s : State) : Bool := (s.pciByte 0x04).getLsbD 1

/-- `mmio_base`, BAR0 (rule R305). -/
def mmioBase (s : State) : Word :=
  wordOf (s.pciByte 0x10) (s.pciByte 0x11) (s.pciByte 0x12) (s.pciByte 0x13)

/-- `lfb_base`, BAR1 (rule R305). -/
def lfbBase (s : State) : Word :=
  wordOf (s.pciByte 0x14) (s.pciByte 0x15) (s.pciByte 0x16) (s.pciByte 0x17)

/-- Which operation of the block a host memory access at a physical address is. -/
inductive HostRoute where
  /-- an MMIO operation at this offset from the window base -/
  | mmio (a : Word)
  /-- an LFB operation at this offset from the window base -/
  | lfb (off : Word)
  /-- no operation of the block: "the access is the platform's" -/
  | platform
  deriving DecidableEq, Repr

/-- Rule R72, with rule R305's order where the windows overlap: "the MMIO window takes the access". -/
def hostRoute (s : State) (h : Word) : HostRoute :=
  if mapMmio s ∧ (mmioBase s).toNat ≤ h.toNat ∧ h.toNat < (mmioBase s).toNat + mmioSize s.cfg.1 then
    .mmio (h - mmioBase s)
  else if mapLfb s ∧ (lfbBase s).toNat ≤ h.toNat ∧ h.toNat < (lfbBase s).toNat + s.cfg.1.vramSize then
    .lfb (h - lfbBase s)
  else .platform

/-- A host memory access: a read of a width, or a write of its data. -/
inductive HostAccess where
  | read (n : Width)
  | write (d : Datum)
  deriving DecidableEq, Repr

/-- The operation of rule R90 that a host memory access at a physical address is, if it is one
(rules R72, R91, R93). -/
def hostOperation (s : State) (h : Word) (x : HostAccess) : Option Instr :=
  match hostRoute s h, x with
  | .mmio a, .read .b1 => some (.mrd8 a)
  | .mmio a, .read .b2 => some (.mrd16 a)
  | .mmio a, .read .b4 => some (.mrd32 a)
  | .mmio a, .write (.d1 v) => some (.mwr8 a v)
  | .mmio a, .write (.d2 v) => some (.mwr16 a v)
  | .mmio a, .write (.d4 v) => some (.mwr32 a v)
  | .lfb off, .read n => some (.lfbrd n off)
  | .lfb off, .write d => some (.lfbwr off d)
  | .platform, _ => none

end Sys2Proof.Machine
end

