-- ==== Sys2Proof/Machine/Arbiter.lean ====
section
/-! DEFINITION. The MMIO arbiter (spec/40_arbiter.md) and the real-mode access shim that both uses it and,
where `RMA_MMIO_WINDOW` is configured, answers through it (spec/43_rma.md, rules R150, R221). -/

namespace Sys2Proof.Machine

/-! ### Targets (rules R135, R136) -/

/-- An unmapped read: 0 and a record (rule R139). -/
def softRead (a : Word) (s : State) : State × Word := (s.addDiag .unmapped a 0 .none, 0)

/-- An unmapped write: a record only (rule R139). -/
def softWrite (a v : Word) (s : State) : State := s.addDiag .unmapped a v .none

/-- Step 3 of the arbiter for a read of a width: forward the aligned address to a region (rules R135, R145 to
R151), one byte of it in an access made inside a byte window (rules R140, R144; log entry 32). -/
def regionRead (r : Region) (n : Width) (a : Word) (s : State) : State × Word :=
  match r with
  | .bank _ => bankRead n a s
  | .pbusPci => (s, accessData n (mirrorRead (mirrorOff s.cfg.1 a) s))
  | .prom => (s, s.memRead .prom (regionOff s.cfg.1 .prom a) n)
  | .vram => (s, s.memRead .vram (regionOff s.cfg.1 .vram a) n)
  | .ramin => (s, s.memRead .ramin (regionOff s.cfg.1 .ramin a) n)
  | .user => (s.drawn, accessData n (Config.userRead s.draws))

/-- Step 3 of the arbiter for a write of a width (rules R136, R145 to R151), of one byte in an access made inside
a byte window (rule R144; log entry 32). -/
def regionWrite (r : Region) (n : Width) (a v : Word) (s : State) : State :=
  match r with
  | .bank _ => bankWrite n a v s
  | .pbusPci =>
    if n = .b1 then cfgWrite (mirrorOff s.cfg.1 a) (byteOf v 0) s else mirrorWrite (mirrorOff s.cfg.1 a) v s
  | .prom => s
  | .vram => s.memWrite .vram (regionOff s.cfg.1 .vram a) n v
  | .ramin => s.memWrite .ramin (regionOff s.cfg.1 .ramin a) n v
  | .user => s.addEvent (.userWrite a (accessData n v))

/-! ### The shim (rules R214 to R218, R221)

The `UNMAPPED` record of an access into the shim's own window carries the address that rules R215 and R218
give it (log entry 17). -/

/-- The read the shim proxies, at `t` (rules R215, R221): a target inside the shim's own MMIO window is
treated as unmapped. -/
def passRead (t : Word) (s : State) : State × Word :=
  match targetOf s.cfg.1 (alignAddr s.cfg.1 t) with
  | .rmaMmio => softRead t s
  | .unmapped => softRead (alignAddr s.cfg.1 t) s
  | .region r => regionRead r (accessWidth s.cfg.1 t) (alignAddr s.cfg.1 t) s

/-- The write the shim proxies, at `t` (rules R218, R221). -/
def passWrite (t v : Word) (s : State) : State :=
  match targetOf s.cfg.1 (alignAddr s.cfg.1 t) with
  | .rmaMmio => softWrite t v s
  | .unmapped => softWrite (alignAddr s.cfg.1 t) v s
  | .region r => regionWrite r (accessWidth s.cfg.1 t) (alignAddr s.cfg.1 t) v s

/-- `(RMA.addr + (off & ~3)) & ~3` (rule R215). -/
def passTarget (s : State) (off : Nat) : Word :=
  (s.rmaAddr + BitVec.ofNat 32 (off / 4 * 4)) &&& ~~~(3 : Word)

/-- `RmaRead(off)` (rules R214, R215). -/
def rmaRead (off : Nat) (s : State) : State × Byte :=
  if modeLow s.rmaMode then
    ((passRead (passTarget s off) s).1, byteOf (passRead (passTarget s off) s).2 (off % 4))
  else if off < 4 then (s, sigByte s.cfg.1.rmaSig off)
  else (s, 0)

/-- `Commit()` (rule R218). -/
def rmaCommit (s : State) : State :=
  let t := passWrite s.rmaAddr s.rmaData s
  if t.rmaMode &&& t.cfg.1.modeAutoinc ≠ 0 then { t with rmaAddr := t.rmaAddr + 4 } else t

/-- The address lanes of `RmaWrite` (rule R216). -/
def rmaWriteAddr (k : Nat) (v : Byte) (s : State) : State := { s with rmaAddr := setLane s.rmaAddr k v }

/-- The data lanes of `RmaWrite` (rule R217): lane 3 commits. -/
def rmaWriteData (k : Nat) (v : Byte) (s : State) : State :=
  if k = 3 then rmaCommit { s with rmaData := setLane s.rmaData k v }
  else { s with rmaData := setLane s.rmaData k v }

/-- `RmaWrite(off, v)` (rules R216, R217). -/
def rmaWrite (off : Nat) (v : Byte) (s : State) : State :=
  if off < 4 then rmaWriteAddr (off % 4) v s else rmaWriteData (off % 4) v s

/-! ### The arbiter (rules R135, R136) -/

/-- The low end of `RMA_MMIO_WINDOW`, when there is one. -/
def rmaWindowLo (c : Cfg) : Word :=
  match c.rmaMmioWindow with
  | some r => r.lo
  | none => 0

/-- `ArbRead(a_in)` (rule R135). -/
def arbRead (a : Word) (s : State) : State × Word :=
  match targetOf s.cfg.1 (alignAddr s.cfg.1 a) with
  | .rmaMmio =>
    ((rmaRead (alignAddr s.cfg.1 a - rmaWindowLo s.cfg.1).toNat s).1,
      (rmaRead (alignAddr s.cfg.1 a - rmaWindowLo s.cfg.1).toNat s).2.setWidth 32)
  | .unmapped => softRead (alignAddr s.cfg.1 a) s
  | .region r => regionRead r (accessWidth s.cfg.1 a) (alignAddr s.cfg.1 a) s

/-- `ArbWrite(a_in, v)` (rule R136). -/
def arbWrite (a v : Word) (s : State) : State :=
  match targetOf s.cfg.1 (alignAddr s.cfg.1 a) with
  | .rmaMmio => rmaWrite (alignAddr s.cfg.1 a - rmaWindowLo s.cfg.1).toNat (byteOf v 0) s
  | .unmapped => softWrite (alignAddr s.cfg.1 a) v s
  | .region r => regionWrite r (accessWidth s.cfg.1 a) (alignAddr s.cfg.1 a) v s

/-! ### Narrow accesses (rules R142, R143) -/

/-- A presented address lies in a byte window (rules R132, R142). -/
def narrowInWindow (c : Cfg) (a : Word) : Bool := c.inByteWindow (maskAddr c a)

/-- `MRD8(a)` (rule R142). -/
def read8 (a : Word) (s : State) : State × Byte :=
  if narrowInWindow s.cfg.1 a then ((arbRead a s).1, byteOf (arbRead a s).2 0)
  else ((arbRead a s).1, sub8 a (arbRead a s).2)

/-- `MRD16(a)` (rule R142). -/
def read16 (a : Word) (s : State) : State × Half :=
  if narrowInWindow s.cfg.1 a then ((arbRead a s).1, (byteOf (arbRead a s).2 0).setWidth 16)
  else ((arbRead a s).1, sub16 a (arbRead a s).2)

/-- `MWR8(a, v)` (rule R143). -/
def write8 (a : Word) (v : Byte) (s : State) : State :=
  if narrowInWindow s.cfg.1 a then arbWrite a (v.setWidth 32) s
  else arbWrite a (merge8 a (arbRead a s).2 v) (arbRead a s).1

/-- `MWR16(a, v)` (rule R143). -/
def write16 (a : Word) (v : Half) (s : State) : State :=
  if narrowInWindow s.cfg.1 a then arbWrite a ((v.setWidth 8).setWidth 32) s
  else arbWrite a (merge16 a (arbRead a s).2 v) (arbRead a s).1

end Sys2Proof.Machine
end

