-- ==== Sys2Proof/Machine/Bus.lean ====
section
/-! DEFINITION. The six MMIO operations of the host (spec/40_arbiter.md section 3). Each is total on every
address and value while `fatal` is false (rule R152). -/

namespace Sys2Proof.Machine

/-- `MRD8 a` (rule R142). -/
def execMrd8 (a : Word) (s : State) : Outcome := complete s (read8 a s).1 (.u8 (read8 a s).2)

/-- `MRD16 a` (rule R142). -/
def execMrd16 (a : Word) (s : State) : Outcome := complete s (read16 a s).1 (.u16 (read16 a s).2)

/-- `MRD32 a` (rule R140). -/
def execMrd32 (a : Word) (s : State) : Outcome := complete s (arbRead a s).1 (.u32 (arbRead a s).2)

/-- `MWR8 a, v` (rule R143). -/
def execMwr8 (a : Word) (v : Byte) (s : State) : Outcome := complete s (write8 a v s) .nothing

/-- `MWR16 a, v` (rule R143). -/
def execMwr16 (a : Word) (v : Half) (s : State) : Outcome := complete s (write16 a v s) .nothing

/-- `MWR32 a, v` (rule R141). -/
def execMwr32 (a : Word) (v : Word) (s : State) : Outcome := complete s (arbWrite a v s) .nothing

end Sys2Proof.Machine
end

