-- ==== Sys2Proof/Machine/Internal.lean ====
section
/-! DEFINITION. The internal and environment events: `RAISE`, `SWI_RAISE` (spec/41_pmc.md section 3) and
`RESET` (spec/70_reset_and_hazards.md section 1). -/

namespace Sys2Proof.Machine

/-- The state `RESET` leaves (rule R350): every piece of the spec's state at its reset value, VRAM and
RAMIN a fresh draw. The model's own counters of draws and of operations, and the operations still to
come, are not state of the block and go on. -/
def resetState (s : State) : State :=
  { State.initial s.cfg (s.epoch + 1) with draws := s.draws, seq := s.seq, stream := s.stream }

/-- `RAISE b, bits` (rule R178). -/
def execRaise (b : IntrBank) (bits : Word) (s : State) : Outcome := complete s (raiseBits b bits s) .nothing

/-- `SWI_RAISE` (rule R179). -/
def execSwiRaise (s : State) : Outcome := complete s (raiseSoftware s) .nothing

/-- `RESET` (rule R350): "the only operation that has a step while `fatal` is true". -/
def execReset (s : State) : Outcome := .next (resetState s)

end Sys2Proof.Machine
end

