-- ==== Sys2Proof/Machine/Pgraph.lean ====
section
/-! DEFINITION. The PGRAPH method engine (spec/45_pgraph.md): the grobj fetch, the handlers, the pixel
tests, the notifier, the dispatch. -/

namespace Sys2Proof.Machine

/-- `GrobjFetch(context_offset)` (rule R261): fresh from RAMIN at every method. -/
def grobjFetch (ctx : BitVec 28) (s : State) : Grobj :=
  { g0 := s.memRead .ramin (ctx.toNat * 16) .b4
    g1 := s.memRead .ramin (ctx.toNat * 16 + 4) .b4
    g2 := s.memRead .ramin (ctx.toNat * 16 + 8) .b4
    g3 := s.memRead .ramin (ctx.toNat * 16 + 12) .b4 }

/-! ### The pixel pipeline (rules R284 to R287) -/

/-- `ClipPass(x, y)` (rule R284): closed at both ends, in natural numbers. -/
def clipPass (p : Pgraph) (x y : Nat) : Bool :=
  decide (p.clipX.toNat ≤ x) && decide (x ≤ p.clipX.toNat + p.clipW.toNat) &&
  decide (p.clipY.toNat ≤ y) && decide (y ≤ p.clipY.toNat + p.clipH.toNat)

/-- `ChromaPass(g, src)` (rule R285). -/
def chromaPass (c : Cfg) (p : Pgraph) (g : Grobj) (src : Color) : Bool :=
  if p.chroma.a ≠ 0 then
    if chromaEn c g then decide (Config.down g src ≠ Config.down g p.chroma) else true
  else true

/-- The bitmap bit that a position selects, none for the reserved shape (rules R106, R286). -/
def patternIndex (shape : BitVec 2) (x y : Nat) : Option Nat :=
  match shape.toNat with
  | 0 => some (y % 8 * 8 + x % 8)
  | 1 => some (x % 64)
  | 2 => some (y % 64)
  | _ => none

/-- `PatternSelect(x, y)` (rule R286): `none` is Suppress, `some c` is Use(c). -/
def patternSelect (p : Pgraph) (x y : Nat) : Option Color :=
  match patternIndex p.patShape x y with
  | none => none
  | some i =>
    let c := if p.patBitmap.getLsbD i then p.patColor1 else p.patColor0
    if c.a = 0 then none else some c

/-- The value a pixel write stores (rule R287). -/
def pixelValue (p : Pgraph) (g : Grobj) (src pat : Color) (dst : Word) : Word :=
  Config.ropBlendPack p.rop p.beta p.planeMask g src pat dst

/-- `Pixel(g, x, y, src)` (rule R287). -/
def pixel (g : Grobj) (x y : Nat) (src : Color) (s : State) : State :=
  if clipPass s.pg x y then
    if chromaPass s.cfg.1 s.pg g src then
      match patternSelect s.pg x y with
      | none => s
      | some pat =>
        s.memWrite .vram (Config.pixAddr s.pg.blackBox g x y).1 (Config.pixAddr s.pg.blackBox g x y).2
          (pixelValue s.pg g src pat
            (s.memRead .vram (Config.pixAddr s.pg.blackBox g x y).1 (Config.pixAddr s.pg.blackBox g x y).2))
    else s
  else s

/-- One row of a fill, left to right from `dx = 0` (rule R272). -/
def fillRow (g : Grobj) (x0 y : Nat) (src : Color) : Nat → State → State
  | 0, s => s
  | w + 1, s => pixel g (x0 + w) y src (fillRow g x0 y src w s)

/-- The rows of a fill, top to bottom from `dy = 0` (rule R272). -/
def fillRect (g : Grobj) (x0 y0 w : Nat) (src : Color) : Nat → State → State
  | 0, s => s
  | h + 1, s => fillRow g x0 (y0 + h) src w (fillRect g x0 y0 w src h s)

/-! ### Handlers -/

/-- `UnknownMethod` (rule R281): a record and no state change. -/
def unknownMethod (h : Handler) (c : MethodCall) (s : State) : State :=
  s.addDiag .unimplMethod c.m c.param (.cls h)

/-- `expand(fmt(g), param)`. -/
def expandParam (s : State) (g : Grobj) (c : MethodCall) : Color :=
  Config.expand (grobjFmt s.cfg.1 g) c.param

/-- Class BETA (rule R266). -/
def betaHandler (c : MethodCall) (s : State) : State :=
  if c.m = s.cfg.1.methods.setBeta then { s with pg := { s.pg with beta := c.param } }
  else unknownMethod .beta c s

/-- Class ROP (rule R267). -/
def ropHandler (c : MethodCall) (s : State) : State :=
  if c.m = s.cfg.1.methods.setRop then { s with pg := { s.pg with rop := c.param.setWidth 8 } }
  else unknownMethod .rop c s

/-- Class CHROMA (rule R268). -/
def chromaHandler (g : Grobj) (c : MethodCall) (s : State) : State :=
  if c.m = s.cfg.1.methods.chromaColor then
    { s with pg := { s.pg with chroma := expandParam s g c } }
  else unknownMethod .chroma c s

/-- Class PLANE (rule R269). -/
def planeHandler (c : MethodCall) (s : State) : State :=
  if c.m = s.cfg.1.methods.planeMask then { s with pg := { s.pg with planeMask := c.param } }
  else unknownMethod .plane c s

/-- Class CLIP (rule R270). -/
def clipHandler (c : MethodCall) (s : State) : State :=
  if c.m = s.cfg.1.methods.clipPoint then
    { s with pg := { s.pg with clipX := paramX c.param, clipY := paramY c.param } }
  else if c.m = s.cfg.1.methods.clipSize then
    { s with pg := { s.pg with clipW := paramX c.param, clipH := paramY c.param } }
  else unknownMethod .clip c s

/-- The low 32 bits of a bitmap replaced (rule R271). -/
def setBitmap0 (t : DWord) (v : Word) : DWord := hiHalfOf t ++ v
where
  /-- bits 63 to 32 -/
  hiHalfOf (t : DWord) : Word := (t >>> 32).setWidth 32

/-- The high 32 bits of a bitmap replaced (rule R271). -/
def setBitmap1 (t : DWord) (v : Word) : DWord := v ++ (t.setWidth 32 : Word)

/-- Class PATTERN (rule R271). -/
def patternHandler (g : Grobj) (c : MethodCall) (s : State) : State :=
  if c.m = s.cfg.1.methods.patShape then { s with pg := { s.pg with patShape := c.param.setWidth 2 } }
  else if c.m = s.cfg.1.methods.patColor0 then
    { s with pg := { s.pg with patColor0 := expandParam s g c } }
  else if c.m = s.cfg.1.methods.patColor1 then
    { s with pg := { s.pg with patColor1 := expandParam s g c } }
  else if c.m = s.cfg.1.methods.patBitmap0 then
    { s with pg := { s.pg with patBitmap := setBitmap0 s.pg.patBitmap c.param } }
  else if c.m = s.cfg.1.methods.patBitmap1 then
    { s with pg := { s.pg with patBitmap := setBitmap1 s.pg.patBitmap c.param } }
  else unknownMethod .pattern c s

/-- The first index in 0 to 15 whose id a method id is (rule R272). -/
def rectIndex (ids : Vector Word 16) (m : Word) : Option (Fin 16) :=
  (List.finRange 16).find? (fun i => ids[i] == m)

/-- Class RECT (rule R272). -/
def rectHandler (g : Grobj) (c : MethodCall) (s : State) : State :=
  if c.m = s.cfg.1.methods.rectColor then
    { s with pg := { s.pg with rectColor := expandParam s g c } }
  else
    match rectIndex s.cfg.1.methods.rectPoint c.m with
    | some i =>
      { s with pg := { s.pg with
          rectX := s.pg.rectX.set i (paramX c.param), rectY := s.pg.rectY.set i (paramY c.param) } }
    | none =>
      match rectIndex s.cfg.1.methods.rectSize c.m with
      | some i =>
        fillRect g s.pg.rectX[i].toNat s.pg.rectY[i].toNat (paramX c.param).toNat s.pg.rectColor
          (paramY c.param).toNat s
      | none => unknownMethod .rect c s

/-- One request of a black-box handler (rule R283). -/
def runRequest (g : Grobj) (r : Request) (s : State) : State :=
  match r with
  | .pix x y src => pixel g x y src s
  | .raw off n v => s.memWrite .vram off n v

/-- The requests of a black-box handler, in list order (rule R283). -/
def runRequests (g : Grobj) : List Request → State → State
  | [], s => s
  | r :: rest, s => runRequests g rest (runRequest g r s)

/-- `raster[h]` on the state as it stands when the step begins (rule R283). -/
def rasterResult (h : RasterClass) (g : Grobj) (c : MethodCall) (s : State) : BlackBox × List Request :=
  Config.raster h s.pg g c (fun k => s.byteAt .vram k) (fun k => s.byteAt .ramin k)

/-- `BlackBox(h, g, m, param)` (rule R283). -/
def blackBox (h : RasterClass) (g : Grobj) (c : MethodCall) (s : State) : State :=
  runRequests g (rasterResult h g c s).2 { s with pg := { s.pg with blackBox := (rasterResult h g c s).1 } }

/-- The handler of a class (rules R266 to R280). -/
def runHandler (h : Handler) (g : Grobj) (c : MethodCall) (s : State) : State :=
  match h with
  | .beta => betaHandler c s
  | .rop => ropHandler c s
  | .chroma => chromaHandler g c s
  | .plane => planeHandler c s
  | .clip => clipHandler c s
  | .pattern => patternHandler g c s
  | .rect => rectHandler g c s
  | .raster k => blackBox k g c s

/-- `Generic(method_id, param)` (rule R263). -/
def genericHandler (c : MethodCall) (s : State) : State :=
  if c.m = s.cfg.1.mSetNotifyCtx then { s with notifyCtx := some c.param }
  else s.addDiag .unimplMethod c.m c.param .generic

/-- `Notify(channel, subchannel, method_id)` (rule R282). -/
def notify (sub : Submission) (s : State) : State :=
  match s.notifyCtx with
  | none => s
  | some c => s.addEvent (.notify c sub.ch sub.sc sub.m)

/-- The method id and parameter of a submission. -/
def callOf (sub : Submission) : MethodCall := { m := sub.m, param := sub.param }

/-- A method that goes to the generic handler (rule R260, step 3). -/
def genericMethod (sub : Submission) (s : State) : State := notify sub (genericHandler (callOf sub) s)

/-- A method that goes to a class handler (rule R260, step 4). -/
def classMethod (h : Handler) (sub : Submission) (s : State) : State :=
  notify sub (runHandler h (grobjFetch sub.ctx s) (callOf sub) s)

/-- A method of a class with no handler (rule R264): under policy `fatal` the step ends with the stop
raised and no notification. -/
def unknownClassMethod (cls : Word) (sub : Submission) (s : State) : State :=
  let t := s.addDiag .fatalClass cls sub.param .none
  match s.cfg.1.unknownClassPolicy with
  | .fatal => t.raiseFatal
  | .logNoop => notify sub t

/-- `CLASS_TAB[class_id]` (rule R9). -/
def handlerOf (tab : List (Word × Handler)) (cls : Word) : Option Handler :=
  match tab with
  | [] => none
  | p :: rest => if p.1 = cls then some p.2 else handlerOf rest cls

/-- `METHOD` (rule R260) of a tuple of the configuration's widths. -/
def methodDispatch (cls : Word) (sub : Submission) (s : State) : State :=
  if sub.m < s.cfg.1.tGeneric then genericMethod sub s
  else
    match handlerOf s.cfg.1.classTab cls with
    | none => unknownClassMethod cls sub s
    | some h => classMethod h sub s

end Sys2Proof.Machine
end

