-- ==== Sys2Proof/Machine/Methods.lean ====
section
/-! DEFINITION. `METHOD` and the METHOD rows of the opcode table (spec/45_pgraph.md). -/

namespace Sys2Proof.Machine

/-- `METHOD` (rule R260). -/
def execMethod (cls : Word) (sub : Submission) (s : State) : Outcome :=
  complete s (methodDispatch (narrowClass s.cfg.1 cls) (narrowSub s.cfg.1 sub) s) .nothing

/-- A method of the generic range, of whatever class (rules R260, R263, R282). -/
def execMGeneric (_cls : Word) (sub : Submission) (s : State) : Outcome :=
  complete s (genericMethod (narrowSub s.cfg.1 sub) s) .nothing

/-- A method handed to a class handler, then the notifier (rule R260, steps 4 and 5). -/
def classStep (h : Handler) (sub : Submission) (s : State) : Outcome :=
  complete s (classMethod h (narrowSub s.cfg.1 sub) s) .nothing

/-- A method of class BETA (rule R266). -/
def execMBeta (sub : Submission) (s : State) : Outcome := classStep .beta sub s

/-- A method of class ROP (rule R267). -/
def execMRop (sub : Submission) (s : State) : Outcome := classStep .rop sub s

/-- A method of class CHROMA (rule R268). -/
def execMChroma (sub : Submission) (s : State) : Outcome := classStep .chroma sub s

/-- A method of class PLANE (rule R269). -/
def execMPlane (sub : Submission) (s : State) : Outcome := classStep .plane sub s

/-- A method of class CLIP (rule R270). -/
def execMClip (sub : Submission) (s : State) : Outcome := classStep .clip sub s

/-- A method of class PATTERN (rule R271). -/
def execMPattern (sub : Submission) (s : State) : Outcome := classStep .pattern sub s

/-- A method of class RECT (rule R272). -/
def execMRect (sub : Submission) (s : State) : Outcome := classStep .rect sub s

/-- A method of class POINT (rule R273). -/
def execMPoint (sub : Submission) (s : State) : Outcome := classStep (.raster .point) sub s

/-- A method of class LINE (rule R274). -/
def execMLine (sub : Submission) (s : State) : Outcome := classStep (.raster .line) sub s

/-- A method of class TRI (rule R275). -/
def execMTri (sub : Submission) (s : State) : Outcome := classStep (.raster .tri) sub s

/-- A method of class GDITEXT (rule R276). -/
def execMGditext (sub : Submission) (s : State) : Outcome := classStep (.raster .gditext) sub s

/-- A method of class M2MF (rule R277). -/
def execMM2mf (sub : Submission) (s : State) : Outcome := classStep (.raster .m2mf) sub s

/-- A method of class SIFM (rule R278). -/
def execMSifm (sub : Submission) (s : State) : Outcome := classStep (.raster .sifm) sub s

/-- A method of class BLIT (rule R279). -/
def execMBlit (sub : Submission) (s : State) : Outcome := classStep (.raster .blit) sub s

/-- A method of class IMAGE (rule R280). -/
def execMImage (sub : Submission) (s : State) : Outcome := classStep (.raster .image) sub s

/-- A method of a class with no handler (rule R264). -/
def execMUnknownClass (cls : Word) (sub : Submission) (s : State) : Outcome :=
  complete s (unknownClassMethod (narrowClass s.cfg.1 cls) (narrowSub s.cfg.1 sub) s) .nothing

end Sys2Proof.Machine
end

