-- ==== Sys2Proof/Machine/PciLfb.lean ====
section
/-! DEFINITION. The PCI configuration operations and the linear framebuffer operations
(spec/46_pci_lfb.md). -/

namespace Sys2Proof.Machine

/-- The byte `CFGRD8 fn, off` returns (rules R300, R301): only function 0 exists. -/
def configIn (fn : Byte) (off : Byte) (s : State) : Byte := if fn = 0 then cfgRead off s else 0xFF

/-- The state after `CFGWR8 fn, off, v` (rules R300, R302). -/
def configOut (fn : Byte) (off v : Byte) (s : State) : State := if fn = 0 then cfgWrite off v s else s

/-- `n` bytes handed back to the host. -/
def replyOf (n : Width) (w : Word) : Reply :=
  match n with
  | .b1 => .u8 (w.setWidth 8)
  | .b2 => .u16 (w.setWidth 16)
  | .b4 => .u32 w

/-- The width of the data of an LFB write. -/
def datumWidth (d : Datum) : Width :=
  match d with
  | .d1 _ => .b1
  | .d2 _ => .b2
  | .d4 _ => .b4

/-- The data of an LFB write, zero-extended. -/
def datumWord (d : Datum) : Word :=
  match d with
  | .d1 v => v.setWidth 32
  | .d2 v => v.setWidth 32
  | .d4 v => v

/-- `CFGRD8 fn, off` (rule R301). -/
def execCfgrd8 (fn : Byte) (off : Byte) (s : State) : Outcome := complete s s (.u8 (configIn fn off s))

/-- `CFGWR8 fn, off, v` (rule R302). -/
def execCfgwr8 (fn : Byte) (off v : Byte) (s : State) : Outcome :=
  complete s (configOut fn off v s) .nothing

/-- `LFBRD n, off` (rule R308). -/
def execLfbrd (n : Width) (off : Word) (s : State) : Outcome :=
  complete s s (replyOf n (s.memRead .vram off.toNat n))

/-- `LFBWR n, off, v` (rule R308). -/
def execLfbwr (off : Word) (d : Datum) (s : State) : Outcome :=
  complete s (s.memWrite .vram off.toNat (datumWidth d) (datumWord d)) .nothing

end Sys2Proof.Machine
end

