-- ==== Sys2Proof/Machine/Ports.lean ====
section
/-! DEFINITION. The legacy-port operations of the real-mode access shim (spec/43_rma.md). -/

namespace Sys2Proof.Machine

/-- A port read (rule R213): the shim's byte, or for a port of the legacy display core a draw. -/
def portIn (port : Half) (s : State) : State × Byte :=
  if isRmaPort s.cfg.1 port then rmaRead (rmaOff s.cfg.1 s.rmaMode port) s
  else (s.drawn, Config.portRead s.draws)

/-- A port write (rule R219): a lane of the shim, or for a port of the legacy display core nothing. -/
def portOut (port : Half) (v : Byte) (s : State) : State :=
  if isRmaPort s.cfg.1 port then rmaWrite (rmaOff s.cfg.1 s.rmaMode port) v s else s

/-- `IORD8 port` (rule R213). -/
def execIord8 (port : Half) (s : State) : Outcome := complete s (portIn port s).1 (.u8 (portIn port s).2)

/-- `IOWR8 port, v` (rule R219). -/
def execIowr8 (port : Half) (v : Byte) (s : State) : Outcome := complete s (portOut port v s) .nothing

/-- `RMA_SETMODE v` (rule R212): the accumulators keep their contents. -/
def execRmaSetmode (v : Byte) (s : State) : Outcome := complete s { s with rmaMode := v } .nothing

end Sys2Proof.Machine
end

