-- ==== Sys2Proof/Machine/Ranges.lean ====
section
/-! DEFINITION. The RANGE rows of the opcode table: a 32-bit access that the arbiter forwards to one
target (rules R109, R133, R135, R136). -/

namespace Sys2Proof.Machine

/-- The aligned address of a RANGE case (rule R131). -/
def rangeAddr (a : BitVec 25) (s : State) : Word := alignAddr s.cfg.1 (a.setWidth 32)

/-- How many bytes a RANGE case touches (rules R131, R144). -/
def rangeWidth (a : BitVec 25) (s : State) : Width := accessWidth s.cfg.1 (a.setWidth 32)

/-- A 32-bit access forwarded to a region (step 3 of rule R130). -/
def rangeAccess (r : Region) (a : BitVec 25) (acc : Access) (s : State) : Outcome :=
  match acc with
  | .read =>
    complete s (regionRead r (rangeWidth a s) (rangeAddr a s) s).1
      (.u32 (regionRead r (rangeWidth a s) (rangeAddr a s) s).2)
  | .write v => complete s (regionWrite r (rangeWidth a s) (rangeAddr a s) v s) .nothing

/-- A 32-bit access that no range holds (rule R139). -/
def softAccess (a : BitVec 25) (acc : Access) (s : State) : Outcome :=
  match acc with
  | .read => complete s (softRead (rangeAddr a s) s).1 (.u32 (softRead (rangeAddr a s) s).2)
  | .write v => complete s (softWrite (rangeAddr a s) v s) .nothing

/-- An access forwarded to bank PMC (rules R133, R190). -/
def execRangePmc (a : BitVec 25) (acc : Access) (s : State) : Outcome :=
  rangeAccess (.bank .pmc) a acc s

/-- An access forwarded to the PCI mirror (rules R145, R306). -/
def execRangePbusPci (a : BitVec 25) (acc : Access) (s : State) : Outcome :=
  rangeAccess (.pbusPci) a acc s

/-- An access forwarded to bank PBUS (rules R133, R190). -/
def execRangePbus (a : BitVec 25) (acc : Access) (s : State) : Outcome :=
  rangeAccess (.bank (.sub .pbus)) a acc s

/-- An access forwarded to bank PFIFO (rules R133, R190). -/
def execRangePfifo (a : BitVec 25) (acc : Access) (s : State) : Outcome :=
  rangeAccess (.bank (.sub .pfifo)) a acc s

/-- An access forwarded to bank PTIMER (rules R133, R190). -/
def execRangePtimer (a : BitVec 25) (acc : Access) (s : State) : Outcome :=
  rangeAccess (.bank (.sub .ptimer)) a acc s

/-- An access forwarded to bank PFB (rules R133, R190, R192). -/
def execRangePfb (a : BitVec 25) (acc : Access) (s : State) : Outcome :=
  rangeAccess (.bank (.sub .pfb)) a acc s

/-- An access forwarded to bank PSTRAPS (rules R133, R190). -/
def execRangePstraps (a : BitVec 25) (acc : Access) (s : State) : Outcome :=
  rangeAccess (.bank (.sub .pstraps)) a acc s

/-- An access forwarded to PROM (rule R146). -/
def execRangeProm (a : BitVec 25) (acc : Access) (s : State) : Outcome :=
  rangeAccess (.prom) a acc s

/-- An access forwarded to bank PME (rules R133, R190). -/
def execRangePme (a : BitVec 25) (acc : Access) (s : State) : Outcome :=
  rangeAccess (.bank (.sub .pme)) a acc s

/-- An access forwarded to bank PGRAPH (rules R133, R190). -/
def execRangePgraph (a : BitVec 25) (acc : Access) (s : State) : Outcome :=
  rangeAccess (.bank (.sub .pgraph)) a acc s

/-- An access forwarded to bank PVIDEO (rules R133, R190). -/
def execRangePvideo (a : BitVec 25) (acc : Access) (s : State) : Outcome :=
  rangeAccess (.bank (.sub .pvideo)) a acc s

/-- An access forwarded to bank PRAMDAC (rules R133, R190). -/
def execRangePramdac (a : BitVec 25) (acc : Access) (s : State) : Outcome :=
  rangeAccess (.bank (.sub .pramdac)) a acc s

/-- An access forwarded to bank PRAMDAC, in the palette byte window (rules R132, R144, R190). -/
def execRangePramdacPalette (a : BitVec 25) (acc : Access) (s : State) : Outcome :=
  rangeAccess (.bank (.sub .pramdac)) a acc s

/-- An access forwarded to VRAM (rule R147). -/
def execRangeVram (a : BitVec 25) (acc : Access) (s : State) : Outcome :=
  rangeAccess (.vram) a acc s

/-- An access forwarded to USER (rule R151). -/
def execRangeUser (a : BitVec 25) (acc : Access) (s : State) : Outcome :=
  rangeAccess (.user) a acc s

/-- An access forwarded to RAMIN (rule R148). -/
def execRangeRamin (a : BitVec 25) (acc : Access) (s : State) : Outcome :=
  rangeAccess (.ramin) a acc s

/-- `RANGE_NONE`: no range holds the address (rule R139). -/
def execRangeNone (a : BitVec 25) (acc : Access) (s : State) : Outcome := softAccess a acc s

end Sys2Proof.Machine
end

