-- ==== Sys2Proof/Machine/Registers.lean ====
section
/-! DEFINITION. The REG rows of the opcode table: an access that the register table's entry answers
(rules R109, R190), and the pseudo-register of a miss. -/

namespace Sys2Proof.Machine

/-- The width of a 32-bit access that presents a register's own address (rules R131, R144). -/
def regWidth (c : Cfg) (e : RegEntry) : Width := accessWidth c e.addr

/-- The datum of a 32-bit access that presents a register's own address (rules R144, R190). -/
def regData (c : Cfg) (e : RegEntry) (v : Word) : Word := entryData (regWidth c e) e v

/-- A 32-bit access to a register-table entry at its own address (rule R190). -/
def regAccess (e : RegEntry) (acc : Access) (s : State) : Outcome :=
  match acc with
  | .read => complete s (entryRead (regWidth s.cfg.1 e) e s).1 (.u32 (entryRead (regWidth s.cfg.1 e) e s).2)
  | .write v => complete s (entryWrite (regWidth s.cfg.1 e) e v s) .nothing

/-- A 32-bit access to an address inside a bank's range that names no register (rule R192). -/
def unimplAccess (a : Word) (acc : Access) (s : State) : Outcome :=
  match acc with
  | .read => complete s (unimplRead a s).1 (.u32 (unimplRead a s).2)
  | .write v => complete s (unimplWrite a v s) .nothing

/-- An access to `PMC_BOOT` (rule R171). -/
def execPmcBoot (acc : Access) (s : State) : Outcome := regAccess (bootEntry s.cfg.1) acc s

/-- An access to `PMC_INTR` (rules R172, R173). -/
def execPmcIntr (acc : Access) (s : State) : Outcome := regAccess (computedEntry s.cfg.1 .pmcIntr) acc s

/-- An access to `PMC_INTR_EN` (rule R174). -/
def execPmcIntrEn (acc : Access) (s : State) : Outcome := regAccess (computedEntry s.cfg.1 .pmcIntrEn) acc s

/-- An access to `PMC_ENABLE` (rule R175). -/
def execPmcEnable (acc : Access) (s : State) : Outcome := regAccess (plainEntry s.cfg.1 .pmcEnable) acc s

/-- An access to `PBUS_INTR` (rule R193). -/
def execPbusIntr (acc : Access) (s : State) : Outcome := regAccess (computedEntry s.cfg.1 (.bankIntr .pbus)) acc s

/-- An access to `PBUS_INTR_EN` (rule R194). -/
def execPbusIntrEn (acc : Access) (s : State) : Outcome := regAccess (computedEntry s.cfg.1 (.bankIntrEn .pbus)) acc s

/-- An access to `PFIFO_INTR` (rule R193). -/
def execPfifoIntr (acc : Access) (s : State) : Outcome := regAccess (computedEntry s.cfg.1 (.bankIntr .pfifo)) acc s

/-- An access to `PFIFO_INTR_EN` (rule R194). -/
def execPfifoIntrEn (acc : Access) (s : State) : Outcome := regAccess (computedEntry s.cfg.1 (.bankIntrEn .pfifo)) acc s

/-- An access to `PTIMER_INTR` (rule R193). -/
def execPtimerIntr (acc : Access) (s : State) : Outcome := regAccess (computedEntry s.cfg.1 (.bankIntr .ptimer)) acc s

/-- An access to `PTIMER_INTR_EN` (rule R194). -/
def execPtimerIntrEn (acc : Access) (s : State) : Outcome := regAccess (computedEntry s.cfg.1 (.bankIntrEn .ptimer)) acc s

/-- An access to `PTIMER_NUMERATOR` (rule R240). -/
def execPtimerNumerator (acc : Access) (s : State) : Outcome := regAccess (plainEntry s.cfg.1 .ptimerNumerator) acc s

/-- An access to `PTIMER_DENOMINATOR` (rule R240). -/
def execPtimerDenominator (acc : Access) (s : State) : Outcome := regAccess (plainEntry s.cfg.1 .ptimerDenominator) acc s

/-- An access to `PTIMER_TIME_LO` (rule R241). -/
def execPtimerTimeLo (acc : Access) (s : State) : Outcome := regAccess (computedEntry s.cfg.1 .timeLo) acc s

/-- An access to `PTIMER_TIME_HI` (rule R241). -/
def execPtimerTimeHi (acc : Access) (s : State) : Outcome := regAccess (computedEntry s.cfg.1 .timeHi) acc s

/-- An access to `PTIMER_ALARM_LO` (rule R242). -/
def execPtimerAlarmLo (acc : Access) (s : State) : Outcome := regAccess (computedEntry s.cfg.1 .alarmLo) acc s

/-- An access to `PTIMER_ALARM_HI` (rule R242). -/
def execPtimerAlarmHi (acc : Access) (s : State) : Outcome := regAccess (computedEntry s.cfg.1 .alarmHi) acc s

/-- An access to `PSTRAPS_STRAPS` (rule R196). -/
def execPstrapsStraps (acc : Access) (s : State) : Outcome := regAccess (computedEntry s.cfg.1 .straps) acc s

/-- An access to `PME_INTR` (rule R193). -/
def execPmeIntr (acc : Access) (s : State) : Outcome := regAccess (computedEntry s.cfg.1 (.bankIntr .pme)) acc s

/-- An access to `PME_INTR_EN` (rule R194). -/
def execPmeIntrEn (acc : Access) (s : State) : Outcome := regAccess (computedEntry s.cfg.1 (.bankIntrEn .pme)) acc s

/-- An access to `PGRAPH_INTR` (rule R193). -/
def execPgraphIntr (acc : Access) (s : State) : Outcome := regAccess (computedEntry s.cfg.1 (.bankIntr .pgraph)) acc s

/-- An access to `PGRAPH_INTR_EN` (rule R194). -/
def execPgraphIntrEn (acc : Access) (s : State) : Outcome := regAccess (computedEntry s.cfg.1 (.bankIntrEn .pgraph)) acc s

/-- An access to `PVIDEO_INTR` (rule R193). -/
def execPvideoIntr (acc : Access) (s : State) : Outcome := regAccess (computedEntry s.cfg.1 (.bankIntr .pvideo)) acc s

/-- An access to `PVIDEO_INTR_EN` (rule R194). -/
def execPvideoIntrEn (acc : Access) (s : State) : Outcome := regAccess (computedEntry s.cfg.1 (.bankIntrEn .pvideo)) acc s

/-- An access to `PRAMDAC_MPLL` (rule R232). -/
def execPramdacMpll (acc : Access) (s : State) : Outcome := regAccess (computedEntry s.cfg.1 .mpll) acc s

/-- An access to `PRAMDAC_VPLL` (rule R231). -/
def execPramdacVpll (acc : Access) (s : State) : Outcome := regAccess (computedEntry s.cfg.1 .vpll) acc s

/-- An access to `PAL_BYTE0` (rule R245). -/
def execPalByte0 (acc : Access) (s : State) : Outcome := regAccess (plainEntry s.cfg.1 (.pal 0)) acc s

/-- An access to `PAL_BYTE1` (rule R245). -/
def execPalByte1 (acc : Access) (s : State) : Outcome := regAccess (plainEntry s.cfg.1 (.pal 1)) acc s

/-- An access to `PAL_BYTE2` (rule R245). -/
def execPalByte2 (acc : Access) (s : State) : Outcome := regAccess (plainEntry s.cfg.1 (.pal 2)) acc s

/-- An access to `PAL_BYTE3` (rule R245). -/
def execPalByte3 (acc : Access) (s : State) : Outcome := regAccess (plainEntry s.cfg.1 (.pal 3)) acc s

/-- An access to `UNIMPL` (rule R192). -/
def execUnimpl (a : BitVec 25) (acc : Access) (s : State) : Outcome := unimplAccess (a.setWidth 32) acc s

end Sys2Proof.Machine
end

