-- ==== Sys2Proof/Machine/RmaRows.lean ====
section
/-! DEFINITION. The RMA rows of the opcode table: the shim's function at an offset (rules R103, R211, R214
to R217). Which of its two readings a read takes is `mode[0]` of the state, as in rules R214 and R215. -/

namespace Sys2Proof.Machine

/-- `RmaRead(off)` as an operation. -/
def rmaReadAt (off : Nat) (s : State) : Outcome := complete s (rmaRead off s).1 (.u8 (rmaRead off s).2)

/-- `RMA_RD_SIG`: a read at an offset below 4 (rules R214, R215). -/
def execRmaRdSig (off : BitVec 2) (s : State) : Outcome := rmaReadAt off.toNat s

/-- `RMA_RD_ZERO`: a read at an offset of 4 and above (rules R214, R215). -/
def execRmaRdZero (off : BitVec 5) (s : State) : Outcome := rmaReadAt off.toNat s

/-- `RMA_RD_PASS`: a read at any offset (rules R214, R215). -/
def execRmaRdPass (off : BitVec 5) (s : State) : Outcome := rmaReadAt off.toNat s

/-- `RMA_WR_ADDR`: an address lane (rule R216). -/
def execRmaWrAddr (off : BitVec 2) (v : Byte) (s : State) : Outcome :=
  complete s (rmaWriteAddr off.toNat v s) .nothing

/-- `RMA_WR_DATA`: a data lane, lane 3 committing (rules R217, R218). -/
def execRmaWrData (off : BitVec 5) (v : Byte) (s : State) : Outcome :=
  complete s (rmaWriteData (off.toNat % 4) v s) .nothing

end Sys2Proof.Machine
end

