-- ==== Sys2Proof/Machine/Timers.lean ====
section
/-! DEFINITION. The expiries of the two software timers (rules R233, R234). -/

namespace Sys2Proof.Machine

/-- `TICK_PCLK` (rule R233). -/
def execTickPclk (s : State) : Outcome := complete s (pclkExpiry s) .nothing

/-- `TICK_MCLK elapsed` (rule R234). -/
def execTickMclk (elapsed : Nat) (s : State) : Outcome := complete s (mclkExpiry elapsed s) .nothing

end Sys2Proof.Machine
end

