-- ==== Sys2Proof/Machine/Dispatch.lean ====
section
/-! DEFINITION. The dispatch: one arm per operation or decode case, one direct call of its meaning. -/

namespace Sys2Proof.Machine

def exec (i : Instr) (s : State) : Host.Outcome State Fault Refusal :=
  match i with
  | .mrd8 a => Sys2Proof.Machine.execMrd8 a s
  | .mrd16 a => Sys2Proof.Machine.execMrd16 a s
  | .mrd32 a => Sys2Proof.Machine.execMrd32 a s
  | .mwr8 a v => Sys2Proof.Machine.execMwr8 a v s
  | .mwr16 a v => Sys2Proof.Machine.execMwr16 a v s
  | .mwr32 a v => Sys2Proof.Machine.execMwr32 a v s
  | .iord8 port => Sys2Proof.Machine.execIord8 port s
  | .iowr8 port v => Sys2Proof.Machine.execIowr8 port v s
  | .cfgrd8 fn off => Sys2Proof.Machine.execCfgrd8 fn off s
  | .cfgwr8 fn off v => Sys2Proof.Machine.execCfgwr8 fn off v s
  | .lfbrd n off => Sys2Proof.Machine.execLfbrd n off s
  | .lfbwr off d => Sys2Proof.Machine.execLfbwr off d s
  | .tickPclk => Sys2Proof.Machine.execTickPclk s
  | .tickMclk elapsed => Sys2Proof.Machine.execTickMclk elapsed s
  | .method cls sub => Sys2Proof.Machine.execMethod cls sub s
  | .raise b bits => Sys2Proof.Machine.execRaise b bits s
  | .swiRaise => Sys2Proof.Machine.execSwiRaise s
  | .reset => Sys2Proof.Machine.execReset s
  | .rmaSetmode v => Sys2Proof.Machine.execRmaSetmode v s
  | .rangePmc a acc => Sys2Proof.Machine.execRangePmc a acc s
  | .rangePbusPci a acc => Sys2Proof.Machine.execRangePbusPci a acc s
  | .rangePbus a acc => Sys2Proof.Machine.execRangePbus a acc s
  | .rangePfifo a acc => Sys2Proof.Machine.execRangePfifo a acc s
  | .rangePtimer a acc => Sys2Proof.Machine.execRangePtimer a acc s
  | .rangePfb a acc => Sys2Proof.Machine.execRangePfb a acc s
  | .rangePstraps a acc => Sys2Proof.Machine.execRangePstraps a acc s
  | .rangeProm a acc => Sys2Proof.Machine.execRangeProm a acc s
  | .rangePme a acc => Sys2Proof.Machine.execRangePme a acc s
  | .rangePgraph a acc => Sys2Proof.Machine.execRangePgraph a acc s
  | .rangePvideo a acc => Sys2Proof.Machine.execRangePvideo a acc s
  | .rangePramdac a acc => Sys2Proof.Machine.execRangePramdac a acc s
  | .rangePramdacPalette a acc => Sys2Proof.Machine.execRangePramdacPalette a acc s
  | .rangeVram a acc => Sys2Proof.Machine.execRangeVram a acc s
  | .rangeUser a acc => Sys2Proof.Machine.execRangeUser a acc s
  | .rangeRamin a acc => Sys2Proof.Machine.execRangeRamin a acc s
  | .rangeNone a acc => Sys2Proof.Machine.execRangeNone a acc s
  | .pmcBoot acc => Sys2Proof.Machine.execPmcBoot acc s
  | .pmcIntr acc => Sys2Proof.Machine.execPmcIntr acc s
  | .pmcIntrEn acc => Sys2Proof.Machine.execPmcIntrEn acc s
  | .pmcEnable acc => Sys2Proof.Machine.execPmcEnable acc s
  | .pbusIntr acc => Sys2Proof.Machine.execPbusIntr acc s
  | .pbusIntrEn acc => Sys2Proof.Machine.execPbusIntrEn acc s
  | .pfifoIntr acc => Sys2Proof.Machine.execPfifoIntr acc s
  | .pfifoIntrEn acc => Sys2Proof.Machine.execPfifoIntrEn acc s
  | .ptimerIntr acc => Sys2Proof.Machine.execPtimerIntr acc s
  | .ptimerIntrEn acc => Sys2Proof.Machine.execPtimerIntrEn acc s
  | .ptimerNumerator acc => Sys2Proof.Machine.execPtimerNumerator acc s
  | .ptimerDenominator acc => Sys2Proof.Machine.execPtimerDenominator acc s
  | .ptimerTimeLo acc => Sys2Proof.Machine.execPtimerTimeLo acc s
  | .ptimerTimeHi acc => Sys2Proof.Machine.execPtimerTimeHi acc s
  | .ptimerAlarmLo acc => Sys2Proof.Machine.execPtimerAlarmLo acc s
  | .ptimerAlarmHi acc => Sys2Proof.Machine.execPtimerAlarmHi acc s
  | .pstrapsStraps acc => Sys2Proof.Machine.execPstrapsStraps acc s
  | .pmeIntr acc => Sys2Proof.Machine.execPmeIntr acc s
  | .pmeIntrEn acc => Sys2Proof.Machine.execPmeIntrEn acc s
  | .pgraphIntr acc => Sys2Proof.Machine.execPgraphIntr acc s
  | .pgraphIntrEn acc => Sys2Proof.Machine.execPgraphIntrEn acc s
  | .pvideoIntr acc => Sys2Proof.Machine.execPvideoIntr acc s
  | .pvideoIntrEn acc => Sys2Proof.Machine.execPvideoIntrEn acc s
  | .pramdacMpll acc => Sys2Proof.Machine.execPramdacMpll acc s
  | .pramdacVpll acc => Sys2Proof.Machine.execPramdacVpll acc s
  | .palByte0 acc => Sys2Proof.Machine.execPalByte0 acc s
  | .palByte1 acc => Sys2Proof.Machine.execPalByte1 acc s
  | .palByte2 acc => Sys2Proof.Machine.execPalByte2 acc s
  | .palByte3 acc => Sys2Proof.Machine.execPalByte3 acc s
  | .unimpl a acc => Sys2Proof.Machine.execUnimpl a acc s
  | .rmaRdSig off => Sys2Proof.Machine.execRmaRdSig off s
  | .rmaRdZero off => Sys2Proof.Machine.execRmaRdZero off s
  | .rmaRdPass off => Sys2Proof.Machine.execRmaRdPass off s
  | .rmaWrAddr off v => Sys2Proof.Machine.execRmaWrAddr off v s
  | .rmaWrData off v => Sys2Proof.Machine.execRmaWrData off v s
  | .mGeneric cls sub => Sys2Proof.Machine.execMGeneric cls sub s
  | .mBeta sub => Sys2Proof.Machine.execMBeta sub s
  | .mRop sub => Sys2Proof.Machine.execMRop sub s
  | .mChroma sub => Sys2Proof.Machine.execMChroma sub s
  | .mPlane sub => Sys2Proof.Machine.execMPlane sub s
  | .mClip sub => Sys2Proof.Machine.execMClip sub s
  | .mPattern sub => Sys2Proof.Machine.execMPattern sub s
  | .mRect sub => Sys2Proof.Machine.execMRect sub s
  | .mPoint sub => Sys2Proof.Machine.execMPoint sub s
  | .mLine sub => Sys2Proof.Machine.execMLine sub s
  | .mTri sub => Sys2Proof.Machine.execMTri sub s
  | .mGditext sub => Sys2Proof.Machine.execMGditext sub s
  | .mM2mf sub => Sys2Proof.Machine.execMM2mf sub s
  | .mSifm sub => Sys2Proof.Machine.execMSifm sub s
  | .mBlit sub => Sys2Proof.Machine.execMBlit sub s
  | .mImage sub => Sys2Proof.Machine.execMImage sub s
  | .mUnknownClass cls sub => Sys2Proof.Machine.execMUnknownClass cls sub s

end Sys2Proof.Machine
end

