-- ==== Sys2Proof/Machine/Step.lean ====
section
/-! DEFINITION. One step of the block: it takes the next operation presented to it and runs it whole
(rules R21, R70, R75). -/

namespace Sys2Proof.Machine

/-- One step. With no operation presented the block does nothing: it reacts to operations (rule R21). A frame
that presents none of rule R90's list, which is complete, and no case of rule R109 is passed over: "the
block takes no step" (rule R72; log entry 15). -/
def step (s : State) : Host.Outcome State Fault Refusal :=
  match s.nextFrame with
  | none => .next s
  | some f =>
    match decode f with
    | .ok i => exec i s.taken
    | .error _ => .next s.passedOver

/-- An operation of the opcode table presented next (rule R90): the agent that issues it is outside the
block. -/
def State.withFetchWord (s : State) (nbits w : Nat) : State := s.present (tableFrame nbits w)

end Sys2Proof.Machine
end

