-- ==== Sys2Proof/Machine/Rows.lean ====
section
/-! DEFINITION. Which decode case an operation selects (rules R109, R384), under the numbers of the opcode
table. -/

namespace Sys2Proof.Machine

/-- The 32-bit MMIO operation of an access (rules R140, R141). -/
def busOp (a : Word) (acc : Access) : Instr :=
  match acc with
  | .read => .mrd32 a
  | .write v => .mwr32 a v

/-- The METHOD case a submission selects (rule R260), with `method_id` and `class_id` of REFCFG's 13 and 5
bits. -/
def methodRow (cls : Word) (sub : Submission) : Instr :=
  if lowBits 13 sub.m < keyTGeneric then .mGeneric cls sub else classInstr (lowBits 5 cls).toNat sub

/-- The RMA case a read at an offset selects (rules R103, R214, R215). -/
def rmaReadRow (mode : Byte) (off : Nat) : Instr :=
  if modeLow mode then .rmaRdPass (BitVec.ofNat 5 off)
  else if off < 4 then .rmaRdSig (BitVec.ofNat 2 off)
  else .rmaRdZero (BitVec.ofNat 5 off)

/-- The RMA case a write at an offset selects (rules R103, R216, R217). -/
def rmaWriteRow (off : Nat) (v : Byte) : Instr :=
  if off < 4 then .rmaWrAddr (BitVec.ofNat 2 off) v else .rmaWrData (BitVec.ofNat 5 off) v

/-- The six banks' rows of `<bank>_INTR` (rule R193). -/
def intrRows : List (IntrBank × (Access → Instr)) :=
  [(.pbus, .pbusIntr), (.pfifo, .pfifoIntr), (.ptimer, .ptimerIntr), (.pme, .pmeIntr),
   (.pgraph, .pgraphIntr), (.pvideo, .pvideoIntr)]

/-- The six banks' rows of `<bank>_INTR_EN` (rule R194). -/
def intrEnRows : List (IntrBank × (Access → Instr)) :=
  [(.pbus, .pbusIntrEn), (.pfifo, .pfifoIntrEn), (.ptimer, .ptimerIntrEn), (.pme, .pmeIntrEn),
   (.pgraph, .pgraphIntrEn), (.pvideo, .pvideoIntrEn)]

/-- The rows of the named `Plain` registers of 32 bits (rules R175, R240). -/
def plainRows : List (PlainReg × (Access → Instr)) :=
  [(.pmcEnable, .pmcEnable), (.ptimerNumerator, .ptimerNumerator), (.ptimerDenominator, .ptimerDenominator)]

/-- The rows of the palette bytes (rule R245). -/
def palRows : List (BitVec 2 × (Access → Instr)) :=
  [(0, .palByte0), (1, .palByte1), (2, .palByte2), (3, .palByte3)]

/-- The rows of the eight classes this spec does not open (rules R273 to R280). -/
def rasterRows : List (RasterClass × (Submission → Instr)) :=
  [(.point, .mPoint), (.line, .mLine), (.tri, .mTri), (.gditext, .mGditext), (.m2mf, .mM2mf),
   (.sifm, .mSifm), (.blit, .mBlit), (.image, .mImage)]

/-- The RANGE rows of the three byte arrays (rules R146 to R148). -/
def memoryRows : List (Region × Space × (BitVec 25 → Access → Instr)) :=
  [(.prom, .prom, .rangeProm), (.vram, .vram, .rangeVram), (.ramin, .ramin, .rangeRamin)]

/-- The RANGE rows a bank answers (rule R6). -/
def bankRangeRows : List RangeRow :=
  [.pmc, .pbus, .pfifo, .ptimer, .pfb, .pstraps, .pme, .pgraph, .pvideo, .pramdac, .palette]

end Sys2Proof.Machine
end

