-- ==== Sys2Proof/Machine/Script.lean ====
section
/-! DEFINITION. The script notation of rule R113, the pseudo-operations of rule R114 as operations, and
a run of the operations a host script issues. -/

namespace Sys2Proof.Machine

/-! ### The notation (rule R113) -/

/-- A hexadecimal digit. -/
def hexDigit (n : Nat) : Char := (Nat.digitChar (n % 16)).toUpper

/-- The lowest `k` hexadecimal digits of a number, most significant first. -/
def hexDigits : Nat → Nat → List Char
  | 0, _ => []
  | k + 1, n => hexDigits k (n / 16) ++ [hexDigit n]

/-- A number in hexadecimal with `0x`. -/
def hexText (k n : Nat) : String := "0x" ++ String.ofList (hexDigits k n)

/-- A number in decimal. -/
def decText (n : Nat) : String := String.ofList (Nat.toDigits 10 n)

/-- Operands separated by commas. -/
def commaText : List String → String
  | [] => ""
  | [x] => x
  | x :: y :: rest => x ++ ", " ++ commaText (y :: rest)

/-- A line: an operation and its operands. -/
def lineText (name : String) (operands : List String) : String := name ++ " " ++ commaText operands

/-- A bank's name. -/
def bankText : IntrBank → String
  | .pbus => "PBUS"
  | .pfifo => "PFIFO"
  | .ptimer => "PTIMER"
  | .pfb => "PFB"
  | .pstraps => "PSTRAPS"
  | .pme => "PME"
  | .pvideo => "PVIDEO"
  | .pramdac => "PRAMDAC"
  | .pgraph => "PGRAPH"

/-- The line of an operation in script notation (rule R113); a decode case is no line of a script. -/
def scriptLine (i : Instr) : Option String :=
  match i with
  | .mrd8 a => some (lineText "MRD8" [hexText 8 a.toNat])
  | .mrd16 a => some (lineText "MRD16" [hexText 8 a.toNat])
  | .mrd32 a => some (lineText "MRD32" [hexText 8 a.toNat])
  | .mwr8 a v => some (lineText "MWR8" [hexText 8 a.toNat, hexText 2 v.toNat])
  | .mwr16 a v => some (lineText "MWR16" [hexText 8 a.toNat, hexText 4 v.toNat])
  | .mwr32 a v => some (lineText "MWR32" [hexText 8 a.toNat, hexText 8 v.toNat])
  | .iord8 p => some (lineText "IORD8" [hexText 4 p.toNat])
  | .iowr8 p v => some (lineText "IOWR8" [hexText 4 p.toNat, hexText 2 v.toNat])
  | .rmaSetmode v => some (lineText "SETMODE" [hexText 2 v.toNat])
  | .cfgrd8 fn off => some (lineText "CFGRD8" [decText fn.toNat, hexText 2 off.toNat])
  | .cfgwr8 fn off v => some (lineText "CFGWR8" [decText fn.toNat, hexText 2 off.toNat, hexText 2 v.toNat])
  | .lfbrd n off => some (lineText "LFBRD" [decText n.bytes, hexText 8 off.toNat])
  | .lfbwr off (.d1 v) => some (lineText "LFBWR" ["1", hexText 8 off.toNat, hexText 2 v.toNat])
  | .lfbwr off (.d2 v) => some (lineText "LFBWR" ["2", hexText 8 off.toNat, hexText 4 v.toNat])
  | .lfbwr off (.d4 v) => some (lineText "LFBWR" ["4", hexText 8 off.toNat, hexText 8 v.toNat])
  | .tickPclk => some "TICK_PCLK"
  | .tickMclk elapsed => some (lineText "TICK_MCLK" [decText elapsed])
  | .method cls sub => some (lineText "METHOD" [hexText 2 cls.toNat, hexText 7 sub.ctx.toNat,
      decText sub.ch.toNat, decText sub.sc.toNat, hexText 4 sub.m.toNat, hexText 8 sub.param.toNat])
  | .raise b bits => some (lineText "RAISE" [bankText b, hexText 8 bits.toNat])
  | .swiRaise => some "SWI"
  | .reset => some "RESET"
  | _ => none

/-! ### Pseudo-operations (rule R114) -/

/-- `IOWR8 B+0, v.0` to `IOWR8 B+3, v.3`. -/
def portBytes (c : Cfg) (v : Word) : List Instr :=
  [.iowr8 c.rmaPortBase (byteOf v 0), .iowr8 (c.rmaPortBase + 1) (byteOf v 1),
   .iowr8 (c.rmaPortBase + 2) (byteOf v 2), .iowr8 (c.rmaPortBase + 3) (byteOf v 3)]

/-- `RMA_ADDR a`. -/
def rmaAddrOps (c : Cfg) (a : Word) : List Instr := .rmaSetmode 0x01 :: portBytes c a

/-- `RMA_DATA v`. -/
def rmaDataOps (c : Cfg) (v : Word) : List Instr := .rmaSetmode 0x03 :: portBytes c v

/-- `RMA_DATA_INC v`. -/
def rmaDataIncOps (c : Cfg) (v : Word) : List Instr := .rmaSetmode 0x0B :: portBytes c v

/-- `RMA_WR32 a, v`. -/
def rmaWr32Ops (c : Cfg) (a v : Word) : List Instr := rmaAddrOps c a ++ rmaDataOps c v

/-- `RMA_RD32 a`: its result is the four bytes read, the first in bits 7 to 0. -/
def rmaRd32Ops (c : Cfg) (a : Word) : List Instr :=
  rmaAddrOps c a ++ [.rmaSetmode 0x01, .iord8 c.rmaPortBase, .iord8 (c.rmaPortBase + 1),
    .iord8 (c.rmaPortBase + 2), .iord8 (c.rmaPortBase + 3)]

/-- `TIME_SET t`, valid only while `PTIMER.time` is 0. -/
def timeSetOps (c : Cfg) (t : DWord) : List Instr :=
  [.mwr32 (computedEntry c .timeLo).addr (loHalf t), .mwr32 (computedEntry c .timeHi).addr (hiHalf t)]

/-- `ALARM_SET t`, valid only while `PTIMER.alarm` is 0. -/
def alarmSetOps (c : Cfg) (t : DWord) : List Instr :=
  [.mwr32 (computedEntry c .alarmLo).addr (loHalf t), .mwr32 (computedEntry c .alarmHi).addr (hiHalf t)]

/-- `PLL_SET reg, M, N, P`. -/
def pllSetOps (reg m n p : Word) : List Instr := [.mwr32 reg (p <<< 16 ||| n <<< 8 ||| m)]

/-- The operations of a list issued one after another (rule R75), stopping where one has no next state. -/
def runOps : List Instr → State → Outcome
  | [], s => .next s
  | i :: rest, s =>
    match exec i s with
    | .next t => runOps rest t
    | .fault r => .fault r
    | .refused r => .refused r

end Sys2Proof.Machine
end

