-- ==== Sys2Proof/Safety.lean ====
section
/-! DEFINITION. What holds of the block between any two operations, and what a safe run is. -/

namespace Sys2Proof.Machine

/-- The last bound of a byte list. -/
def memBelow (m : Mem) (size : Nat) : Bool := m.all (fun c => decide (c.1 < size))

/-- The byte arrays keep their one form: offsets strictly rising, each inside the array (rules R12, R66). -/
def State.memOk (s : State) : Prop :=
  Mem.wf s.vram = true ∧ Mem.wf s.ramin = true ∧
  memBelow s.vram s.cfg.1.vramSize = true ∧ memBelow s.ramin s.cfg.1.raminSize = true

/-- The interrupt aggregator's state (rules R26, R27, R170, R177, R181): bits 30 to 0 of the aggregate are
what the banks' pairs give, `intr_en` has no bit outside `EN_MASK`, and with nothing pending or nothing
enabled the line is low. -/
def State.intrOk (s : State) : Prop :=
  s.pmcIntr &&& ~~~swBit = s.hwBits ∧ s.pmcIntrEn &&& ~~~enMask s.cfg.1 = 0 ∧
  (s.pmcIntr = 0 → s.irqLine = false) ∧ (s.pmcIntrEn = 0 → s.irqLine = false)

/-- The PCI bytes (rules R301, R302): the ids read as configured and the hardwired bits of both BARs
read 0. -/
def State.pciOk (s : State) : Prop :=
  (∀ off : Byte, off ≤ 0x03 → s.pciByte off = (resetPci s.cfg.1)[off.toNat]'off.isLt) ∧
  (∀ off : Byte, 0x10 ≤ off → off ≤ 0x17 → cfgStored s.cfg.1 off (s.pciByte off) = s.pciByte off)

/-- The timers (rules R38, R231 to R234): an armed timer's period is the one synthesised from its divider
register. -/
def State.clocksOk (s : State) : Prop :=
  (s.pclk.armed = true → s.pclk.period = synthPeriod s.cfg.1 s.vpll) ∧
  (s.mclk.armed = true → s.mclk.period = synthPeriod s.cfg.1 s.mpll)

/-- The invariant of the block. -/
def State.Inv (s : State) : Prop := s.memOk ∧ s.intrOk ∧ s.pciOk ∧ s.clocksOk

/-- A safe outcome: the block goes on and has not been stopped by an unknown class (rule R326). -/
def safeOutcome (o : Outcome) : Bool :=
  match o with
  | .next s => !s.fatal
  | .fault _ => false
  | .refused _ => false

end Sys2Proof.Machine
end

