-- ==== Sys2Proof/Certificates/Slice0/Obligations.lean ====
section
/-! DEFINITION. The statements about the model. Each docstring names the rules of the spec it states; a
hypothesis `s.fatal = false` is rule R30's "while it is true no operation other than `RESET` has a
step". -/

open Sys2Proof Sys2Proof.Machine

/-! ### Encoding -/

/-- Every operation and decode case, with every operand it takes, decodes from its own encoding. The keys
are rule R90's and R109's; the layout of the operands above a key is the model's own (log entry 4). -/
def Obligations.DecodeOfEncodeIsTheInstruction : Prop :=
  ∀ i : Instr, wellFormed i = true → decode (encode i) = .ok i

/-- Whatever the decoder reads is well formed: the operands are ones that select the case (rule R109). And no
two words of a format mean the same: the word a decoded operation came from is its encoding. RMA words are
left out of the second part because a write row takes either value of the mode bit (log entry 4). -/
def Obligations.DecodedFrameIsTheEncodingOfAWellFormedCase : Prop :=
  ∀ (f : OpFrame) (i : Instr), decode f = .ok i → wellFormed i = true ∧ (f.fmt ≠ .rma → encode i = f)

/-- A few words, one of each format, with keys written out from rules R90 and R109: operation code 5 at
address 0x200; the address of `PMC_ENABLE`; an address of PTIMER's range; the RMA key of a data lane (bit 6
the direction, bits 4 to 0 the offset 7); the METHOD key of class 0x07. Where the operands stand above the
keys, the direction byte, and that the method id of a class row counts from `T_GENERIC` (0x105 for the word
0x07) are the model's own layout (log entry 4). -/
def Obligations.SampleWordsDecode : Prop :=
  decode { fmt := .op, word := 0x05 + 2 ^ 8 * 0x200 + 2 ^ 40 * 0x11111111 } = .ok (.mwr32 0x200 0x11111111) ∧
  decode { fmt := .reg, word := 0x200 } = .ok (.pmcEnable .read) ∧
  decode { fmt := .range, word := 0x9400 } = .ok (.rangePtimer 0x9400 .read) ∧
  decode { fmt := .rma, word := 2 ^ 6 + 7 + 2 ^ 8 * 0xDE } = .ok (.rmaWrData 7 0xDE) ∧
  decode { fmt := .method, word := 0x07 } = .ok (.mRect { ch := 0, sc := 0, m := 0x105, ctx := 0, param := 0 })

/-! ### The step -/

/-- The block takes the next operation presented and runs it whole; `seq` advances by exactly 1 (rule R21).
How an operation is presented is the model's own: with none presented nothing happens (log entry 3), and a
frame that the decoder refuses by name presents no operation and is passed over (log entry 15). -/
def Obligations.StepRunsTheDecodedOperation : Prop :=
  (∀ (s : State) (f : OpFrame) (rest : List OpFrame) (i : Instr),
    s.stream = f :: rest → decode f = .ok i →
    step s = exec i { s with stream := rest, seq := s.seq + 1 }) ∧
  (∀ (s : State) (n w : Nat) (i : Instr), decodeTableWord n w = some i →
    step (s.withFetchWord n w) = exec i { s with seq := s.seq + 1 }) ∧
  (∀ s : State, s.stream = [] → step s = .next s) ∧
  ∀ (s : State) (f : OpFrame) (rest : List OpFrame) (e : DecodeError),
    s.stream = f :: rest → decode f = .error e → step s = .next { s with stream := rest }

/-- While `fatal` is true no operation other than RESET has a step, and RESET has one (rules R30, R326). -/
def Obligations.StoppedBlockTakesOnlyReset : Prop :=
  (∀ (i : Instr) (s : State), s.fatal = true → i ≠ .reset → exec i s = .fault .blockStopped) ∧
  ∀ s : State, ∃ t, exec .reset s = .next t ∧ t.fatal = false

/-- While `fatal` is false every operation completes, on every operand and in every state (rules R70,
R152, R384): all 88 constructors. -/
def Obligations.EveryOperationCompletes : Prop :=
  ∀ (i : Instr) (s : State), s.fatal = false → ∃ t, exec i s = .next t

/-- Only a method with an unknown class, under policy `fatal`, stops the block (rules R30, R264, R326); the
method and class ids are taken in the configuration's widths (log entry 29). -/
def Obligations.OnlyAnUnknownClassStopsTheBlock : Prop :=
  ∀ (i : Instr) (s t : State), exec i s = .next t → t.fatal = true →
    s.cfg.1.unknownClassPolicy = .fatal ∧
    ∃ cls sub, (i = .method cls sub ∧ s.cfg.1.tGeneric.toNat ≤ sub.m.toNat % 2 ^ s.cfg.1.wMethod ∧
        ∀ p ∈ s.cfg.1.classTab, p.1.toNat ≠ cls.toNat % 2 ^ s.cfg.1.wClass) ∨
      i = .mUnknownClass cls sub

/-! ### Invariants -/

/-- Every step keeps the aggregator's state as rules R26, R27, R170, R177 and R181 say it is: bits 30 to 0
of the aggregate are what the banks' pairs give, no bit outside `EN_MASK` is set, and the line is low
with nothing pending or nothing enabled. -/
def Obligations.EveryStepKeepsTheInterruptState : Prop :=
  ∀ s t : State, s.intrOk → step s = .next t → t.intrOk

/-- Every step keeps the byte arrays in their one form, inside their sizes. That an offset is reduced modulo
the array's size is rules R12 and R66; the form itself, the listed bytes with offsets strictly rising, is
the model's own (log entry 7). -/
def Obligations.EveryStepKeepsTheMemoryForm : Prop :=
  ∀ s t : State, s.memOk → step s = .next t → t.memOk

/-- Every step keeps the PCI ids and the hardwired 0 bits of both BARs (rules R301, R302), and keeps an armed
timer's period the one synthesised from its divider register (rules R38, R231 to R234). -/
def Obligations.EveryStepKeepsThePciBytesAndTimerPeriods : Prop :=
  (∀ s t : State, s.pciOk → step s = .next t → t.pciOk) ∧
  ∀ s t : State, s.clocksOk → step s = .next t → t.clocksOk

/-- The invariant holds after every RESET, under every configuration, and at the model's reset state
(rules R50, R350: "the values already satisfy what it would establish"). -/
def Obligations.ResetSatisfiesTheInvariant : Prop :=
  (∀ (c : ValidCfg) (n : Nat), (State.initial c n).Inv) ∧ State.reset.Inv

/-- The parameter record is no state: no step changes it (rule R22); a step takes one frame from the stream,
and `seq` advances by exactly 1 if it is an operation (rule R21), by none if it is passed over (log entry
15). -/
def Obligations.ConfigurationNeverChanges : Prop :=
  ∀ s t : State, step s = .next t →
    t.cfg = s.cfg ∧
    ∀ f rest, s.stream = f :: rest → t.stream = rest ∧
      (∀ i, decode f = .ok i → t.seq = s.seq + 1) ∧ (∀ e, decode f = .error e → t.seq = s.seq)

/-- Between two RESETs the alarm only gains bits (rules R242, R362), `DIAG` and `EVENTS` are only appended
to (rules R47, R48), a configured notifier stays configured (rule R282), and an armed timer stays
armed (rules R233, R234). -/
def Obligations.WhatOnlyResetTakesBack : Prop :=
  ∀ (i : Instr) (s t : State), i ≠ .reset → exec i s = .next t →
    s.ptimerAlarm &&& t.ptimerAlarm = s.ptimerAlarm ∧
    (∃ l, t.diag = s.diag ++ l) ∧ (∃ l, t.events = s.events ++ l) ∧
    (s.notifyCtx ≠ none → t.notifyCtx ≠ none) ∧
    (s.pclk.armed = true → t.pclk.armed = true) ∧ (s.mclk.armed = true → t.mclk.armed = true)

/-- The diagnostic trace changes nothing else (rule R14: "no rule ever reads `DIAG`, so a model may drop the
trace without changing any other state"): from two states that differ in `DIAG` alone, an operation has
the same outcome but for `DIAG`. -/
def Obligations.DiagnosticTraceIsNeverRead : Prop :=
  ∀ (i : Instr) (s t : State) (d : List DiagRecord), exec i s = .next t →
    ∃ u, exec i { s with diag := d } = .next u ∧ { u with diag := t.diag } = t

/-! ### Addresses and the bus -/

/-- Rule R98, with rules R63 and R131: the address is masked, then dword-aligned unless it lies in a byte window. Addresses
that agree below `ADDR_BITS` are one address: each of the six MMIO operations has the same outcome at both,
and with either in `RMA.addr` every port operation has the same outcome, but for `RMA.addr` itself and, where
the shim has an MMIO window (log entry 17), for `DIAG`. And outside a byte window a misaligned 32-bit access
is the access to the aligned dword, and it completes: where the aligned address is outside the byte windows too,
or, as rule R131 has it of 0x6813CA, names a palette byte. (Anywhere else in a byte window the aligned access
touches one byte and the misaligned one is of the whole dword, because the test is made once, on the unaligned
address: the RANGE rows' statements.) -/
def Obligations.MisalignedAccessIsTheAlignedAccess : Prop :=
  ∀ (s : State) (c : Cfg) (a : Word), c = s.cfg.1 →
    (alignAddr c a).toNat =
      (if c.inByteWindow (BitVec.ofNat 32 (a.toNat % 2 ^ c.addrBits)) then a.toNat % 2 ^ c.addrBits
       else a.toNat % 2 ^ c.addrBits / 4 * 4) ∧
    (∀ b : Word, a.toNat % 2 ^ c.addrBits = b.toNat % 2 ^ c.addrBits →
      alignAddr c a = alignAddr c b ∧
      exec (.mrd8 a) s = exec (.mrd8 b) s ∧ exec (.mrd16 a) s = exec (.mrd16 b) s ∧
      exec (.mrd32 a) s = exec (.mrd32 b) s ∧ (∀ v, exec (.mwr8 a v) s = exec (.mwr8 b v) s) ∧
      (∀ v, exec (.mwr16 a v) s = exec (.mwr16 b v) s) ∧ (∀ v, exec (.mwr32 a v) s = exec (.mwr32 b v) s) ∧
      (s.fatal = false → ∀ port v, ∀ i ∈ [Instr.iord8 port, .iowr8 port v],
        ∃ t u, exec i { s with rmaAddr := a } = .next t ∧ exec i { s with rmaAddr := b } = .next u ∧
          { u with rmaAddr := t.rmaAddr, diag := t.diag } = t ∧ (c.rmaMmioWindow = none → u.diag = t.diag))) ∧
    (s.fatal = false → c.inByteWindow (maskAddr c a) = false →
      (c.inByteWindow (maskAddr c (a &&& ~~~3)) = false ∨
        ∃ b k, targetOf c (alignAddr c a) = .region (.bank b) ∧
          ∃ e ∈ c.rtab, e.kind = .plain (.pal k) ∧ e.addr = alignAddr c a) →
      (∃ t, exec (.mrd32 a) s = .next t ∧ exec (.mrd32 (a &&& ~~~3)) s = .next t) ∧
      ∀ v, ∃ t, exec (.mwr32 a v) s = .next t ∧ exec (.mwr32 (a &&& ~~~3) v) s = .next t)

/-- Rule R139, at every address that decodes to `Unmapped` and in the decode case `RANGE_NONE`: a read returns
0 and a write changes nothing, each with its one record. -/
def Obligations.UnmappedAddressSoftFails : Prop :=
  ∀ (s : State) (a v : Word) (b : BitVec 25) (miss : Word → Word → State), s.fatal = false →
    (∀ x w, miss x w = { s with diag := s.diag ++ [{ kind := .unmapped, addr := x, value := w, name := .none }] }) →
    (targetOf s.cfg.1 (alignAddr s.cfg.1 a) = .unmapped →
      exec (.mrd32 a) s = .next { miss (alignAddr s.cfg.1 a) 0 with reply := .u32 0 } ∧
      exec (.mwr32 a v) s = .next { miss (alignAddr s.cfg.1 a) v with reply := .nothing }) ∧
    exec (.rangeNone b .read) s = .next { miss (rangeAddr b s) 0 with reply := .u32 0 } ∧
    exec (.rangeNone b (.write v)) s = .next { miss (rangeAddr b s) v with reply := .nothing }

/-- Under the numbers of the opcode table the 32-bit MMIO operations do what the RANGE row their address
selects does: the walk of rule R133 in priority order (rule R109), for all seventeen rows. And under every
configuration they do what the row of their aligned address's target does (rules R135, R136, R139). -/
def Obligations.BusOperationIsItsRangeRow : Prop :=
  (∀ (s : State) (a : BitVec 25) (acc : Access), s.cfg = refCfg32 →
    exec (busOp (a.setWidth 32) acc) s = exec (rangeInstr (rangeRow a) a acc) s) ∧
  ∀ (s : State) (a : BitVec 25) (acc : Access) (row : RangeRow),
    targetOf s.cfg.1 (alignAddr s.cfg.1 (a.setWidth 32)) = (match row.region with
      | some g => .region g
      | none => .unmapped) →
    exec (busOp (a.setWidth 32) acc) s = exec (rangeInstr row a acc) s

/-- Under the numbers of the opcode table the 32-bit MMIO operations at a register's address do what its REG
row does, and at any other address of a bank what `UNIMPL` does (rules R109, R190). -/
def Obligations.BusOperationIsItsRegisterRow : Prop :=
  (∀ (s : State) (acc : Access), s.cfg = refCfg16 ∨ s.cfg = refCfg32 → ∀ p ∈ regRows,
    exec (busOp (BitVec.ofNat 32 p.1) acc) s = exec (p.2 acc) s) ∧
  ∀ (s : State) (a : BitVec 25) (acc : Access), s.cfg = refCfg32 → unimplAddr a = true →
    exec (busOp (a.setWidth 32) acc) s = exec (.unimpl a acc) s

/-- Rules R142 and R143 outside a byte window, with rules R62 and R64: a narrow read performs the one 32-bit
read and returns the bits from the addressed lane up, zeros above bit 31; a narrow write is the read of the
aligned dword and then the write of it with the addressed lane, or the two lanes from it up that exist,
replaced. -/
def Obligations.NarrowAccessIsALaneOfTheDword : Prop :=
  ∀ (s : State) (a : Word) (v : Byte) (w : Half) (k : Nat), s.fatal = false → k = a.toNat % 4 →
    s.cfg.1.inByteWindow (maskAddr s.cfg.1 a) = false →
    ∃ (t : State) (d m n : Word), exec (.mrd32 a) s = .next t ∧ t.reply = .u32 d ∧
      exec (.mrd8 a) s = .next { t with reply := .u8 (BitVec.ofNat 8 (d.toNat / 2 ^ (8 * k))) } ∧
      exec (.mrd16 a) s = .next { t with reply := .u16 (BitVec.ofNat 16 (d.toNat / 2 ^ (8 * k))) } ∧
      (∀ j, j < 4 → byteOf m j = if j = k then v else byteOf d j) ∧
      (∀ j, j < 4 → byteOf n j =
        if j = k then w.setWidth 8 else if j = k + 1 then (w >>> 8).setWidth 8 else byteOf d j) ∧
      exec (.mwr8 a v) s = exec (.mwr32 a m) t ∧ exec (.mwr16 a w) s = exec (.mwr32 a n) t

/-- Rules R140 and R142 to R144 inside a byte window: a 32-bit read returns one byte zero-extended, whatever
target answers, and a 32-bit write of a register, a memory or another target stores bits 7 to 0 alone. An 8-
or 16-bit access is one such access: a read returns its low byte, a write sends its low byte, and there is no
read before the write. On a `Plain` entry the byte is the entry's, under its mask, and every other `Plain` entry
is left. That this holds of a target that is no byte register, and that a register wider than a byte takes the
byte as its whole value, is the model's choice (log entries 12 and 32). -/
def Obligations.ByteWindowAccessTouchesOneByte : Prop :=
  ∀ (s : State) (a : Word) (v : Byte) (w : Half) (at_ : Word) (c : Cfg), s.fatal = false → c = s.cfg.1 →
    at_ = maskAddr c a → c.inByteWindow at_ = true →
    (∃ (t : State) (d : Byte), exec (.mrd32 a) s = .next { t with reply := .u32 (d.setWidth 32) } ∧
      exec (.mrd8 a) s = .next { t with reply := .u8 d } ∧
      exec (.mrd16 a) s = .next { t with reply := .u16 (d.setWidth 16) }) ∧
    (∃ t, exec (.mwr32 a (v.setWidth 32)) s = .next t ∧ exec (.mwr8 a v) s = .next t) ∧
    (∃ t, exec (.mwr32 a ((w.setWidth 8).setWidth 32)) s = .next t ∧ exec (.mwr16 a w) s = .next t) ∧
    (targetOf c at_ ≠ .unmapped → (∀ b, targetOf c at_ = .region (.bank b) → ∃ e ∈ c.rtab, e.addr = at_) →
      ∀ x y : Word, (∀ j, j < 8 → x.getLsbD j = y.getLsbD j) →
        ∃ t, exec (.mwr32 a x) s = .next t ∧ exec (.mwr32 a y) s = .next t) ∧
    ∀ (e : RegEntry) (p : PlainReg) (b : Bank) (x d m : Word), e ∈ c.rtab → e.kind = .plain p →
      e.addr = at_ → targetOf c at_ = .region (.bank b) →
      d = s.plainGet p e.addr &&& e.mask &&& 0xFF → m = x &&& 0xFF →
      exec (.mrd32 a) s = .next ((s.addDiag .access e.addr d (.reg e.name)).answer (.u32 d)) ∧
      exec (.mwr32 a x) s =
        .next (((s.plainSet p e.addr (m &&& e.mask)).addDiag .access e.addr m (.reg e.name)).answer .nothing) ∧
      ∀ e' ∈ c.rtab, ∀ q, e'.kind = .plain q → e'.addr ≠ e.addr →
        (s.plainSet p e.addr (m &&& e.mask)).plainGet q e'.addr = s.plainGet q e'.addr

/-! ### Targets that are not banks -/

/-- Rules R146, R147, R148: a read of PROM, VRAM or RAMIN returns the four bytes at the aligned address less
the target's low end, least significant first, and changes nothing. Rule R131: whether the access lies in a byte
window is asked once, of the address as presented. That inside one it returns the one byte there, where rule R144
speaks of byte registers and not of byte arrays, is the model's choice (log entry 32); and so is, where a target
has two ranges, that the low end is the first one's (log entry 33). -/
def Obligations.MemoryTargetReadsFourBytes : Prop :=
  ∀ (s : State) (a : BitVec 25) (inside : Bool), s.fatal = false →
    inside = s.cfg.1.inByteWindow (maskAddr s.cfg.1 (a.setWidth 32)) →
    ∀ p ∈ memoryRows, ∀ o d,
    o = (rangeAddr a s - regionLo s.cfg.1.amap p.1).toNat →
    d = (if inside then (s.byteAt p.2.1 o).setWidth 32
      else s.byteAt p.2.1 (o + 3) ++ s.byteAt p.2.1 (o + 2) ++ s.byteAt p.2.1 (o + 1) ++ s.byteAt p.2.1 o : Word) →
    exec (p.2.2 a .read) s = .next (s.answer (.u32 d))

/-- Rules R66, R146, R147, R148: a write of VRAM or RAMIN stores the four bytes at the aligned address less
the target's low end, each offset reduced modulo the array's size, and leaves every other byte and everything
else; a write of PROM changes nothing. Rule R131: whether the access lies in a byte window is asked once, of the
address as presented. The model's choices are: that inside a byte window the one byte there is stored, where rule
R144 speaks of byte registers and not of byte arrays (log entry 32); where a target has two ranges, that the low
end is the first one's (log entry 33); where an array is smaller than the access, that the highest byte stands
(log entry 37). -/
def Obligations.MemoryTargetWritesFourBytes : Prop :=
  ∀ (s : State) (a : BitVec 25) (v : Word) (n : Nat), s.fatal = false →
    n = (if s.cfg.1.inByteWindow (maskAddr s.cfg.1 (a.setWidth 32)) then 1 else 4) →
    exec (.rangeProm a (.write v)) s = .next { s with reply := .nothing } ∧
    (∀ o, o = (rangeAddr a s - regionLo s.cfg.1.amap .vram).toNat →
      ∃ t, exec (.rangeVram a (.write v)) s = .next t ∧
        { t with vram := s.vram } = { s with reply := .nothing } ∧
        (∀ i k, i < n → (∀ j, i < j → j < n → (o + j) % s.cfg.1.vramSize ≠ (o + i) % s.cfg.1.vramSize) →
          k % s.cfg.1.vramSize = (o + i) % s.cfg.1.vramSize → t.byteAt .vram k = byteOf v i) ∧
        ∀ k, (∀ i, i < n → k % s.cfg.1.vramSize ≠ (o + i) % s.cfg.1.vramSize) →
          t.byteAt .vram k = s.byteAt .vram k) ∧
    ∀ o, o = (rangeAddr a s - regionLo s.cfg.1.amap .ramin).toNat →
      ∃ t, exec (.rangeRamin a (.write v)) s = .next t ∧
        { t with ramin := s.ramin } = { s with reply := .nothing } ∧
        (∀ i k, i < n → (∀ j, i < j → j < n → (o + j) % s.cfg.1.raminSize ≠ (o + i) % s.cfg.1.raminSize) →
          k % s.cfg.1.raminSize = (o + i) % s.cfg.1.raminSize → t.byteAt .ramin k = byteOf v i) ∧
        ∀ k, (∀ i, i < n → k % s.cfg.1.raminSize ≠ (o + i) % s.cfg.1.raminSize) →
          t.byteAt .ramin k = s.byteAt .ramin k

/-- Rule R151: a write of USER hands its address and value to PFIFO as an event and changes nothing else; a
read returns a draw. That a read counts the draw is the model's own (log entry 9). Inside a byte window value and
draw are one byte (rules R140, R144; that this holds of USER, which is no register, is log entry 32). -/
def Obligations.UserTargetHandsOverToPfifo : Prop :=
  ∀ (s : State) (a : BitVec 25) (v : Word), s.fatal = false →
    exec (.rangeUser a .read) s =
      .next { s with draws := s.draws + 1, reply := .u32 (accessData (rangeWidth a s) (Config.userRead s.draws)) } ∧
    exec (.rangeUser a (.write v)) s =
      .next { s with
        events := s.events ++ [.userWrite (rangeAddr a s) (accessData (rangeWidth a s) v)]
        reply := .nothing }

/-- Rules R190 and R192 for the eleven RANGE rows that a bank answers: the register table is consulted with
the aligned address; a hit appends the entry's `ACCESS` record last, a miss reads 0, writes nothing and
appends an `UNIMPL_REG` record; and so does the decode case `UNIMPL`. The value in the record of a write is
`entryData`, a byte inside a byte window (rule R144; log entries 12 and 32). -/
def Obligations.BankRowConsultsTheRegisterTable : Prop :=
  ∀ (s : State) (a : BitVec 25) (v : Word) (miss : Word → Word → State), s.fatal = false →
    (∀ x w, miss x w = { s with diag := s.diag ++ [{ kind := .unimplReg, addr := x, value := w, name := .none }] }) →
    (∀ r ∈ bankRangeRows,
      (∀ e ∈ s.cfg.1.rtab, e.addr = rangeAddr a s →
        (∃ t d, exec (rangeInstr r a .read) s = .next t ∧ t.reply = .u32 d ∧
          t.diag.getLast? = some { kind := .access, addr := e.addr, value := d, name := .reg e.name }) ∧
        ∃ t, exec (rangeInstr r a (.write v)) s = .next t ∧
          t.diag.getLast? = some
            { kind := .access, addr := e.addr, value := entryData (rangeWidth a s) e v, name := .reg e.name }) ∧
      ((∀ e ∈ s.cfg.1.rtab, e.addr ≠ rangeAddr a s) →
        exec (rangeInstr r a .read) s = .next { miss (rangeAddr a s) 0 with reply := .u32 0 } ∧
        exec (rangeInstr r a (.write v)) s = .next { miss (rangeAddr a s) v with reply := .nothing })) ∧
    exec (.unimpl a .read) s = .next { miss (a.setWidth 32) 0 with reply := .u32 0 } ∧
    exec (.unimpl a (.write v)) s = .next { miss (a.setWidth 32) v with reply := .nothing }

/-! ### Registers -/

/-- Rule R171: `PMC_BOOT` reads as the configured constant and drops what is written; both accesses are logged
and change nothing else. Rule R196: the straps read as stored; a write is stored where the revision supports
overwrite, else ignored and logged. Inside a byte window the data are one byte (rule R144; log entry 32). -/
def Obligations.BootIsReadOnlyAndStrapsNeedOverwrite : Prop :=
  ∀ s : State, s.fatal = false → (∃ e ∈ s.cfg.1.rtab, e.name = .pmcBoot ∧
    (∀ d, d = regData s.cfg.1 e s.cfg.1.pmcBootValue → exec (.pmcBoot .read) s =
      .next ((s.addDiag .access e.addr d (.reg e.name)).answer (.u32 d))) ∧
    ∀ w v, v = regData s.cfg.1 e w →
      exec (.pmcBoot (.write w)) s = .next ((s.addDiag .access e.addr v (.reg e.name)).answer .nothing)) ∧
    ∃ e ∈ s.cfg.1.rtab, e.name = .computed .straps ∧
    (∀ d, d = regData s.cfg.1 e s.straps → exec (.pstrapsStraps .read) s =
      .next ((s.addDiag .access e.addr d (.reg e.name)).answer (.u32 d))) ∧
    ∀ w v, v = regData s.cfg.1 e w → exec (.pstrapsStraps (.write w)) s =
      .next (((if s.cfg.1.strapOverwrite = true then { s with straps := v }
        else s.addDiag .anomalyStraps e.addr v (.reg e.name)).addDiag .access e.addr v (.reg e.name)).answer
          .nothing)

/-- Rule R191 for the named 32-bit `Plain` registers `PMC_ENABLE`, `PTIMER_NUMERATOR` and
`PTIMER_DENOMINATOR` (rules R175, R240), and for every `Plain` entry a configuration adds (rule R7), reached
through the RANGE rows a bank answers: a read returns the cell under the mask, a write stores the value under
the mask in that cell and nowhere else. That an entry a configuration puts into a byte window takes and shows
one byte, and is logged so, is the model's choice (log entry 12). -/
def Obligations.PlainRegisterStoresUnderItsMask : Prop :=
  ∀ s : State, s.fatal = false →
    (∀ p ∈ plainRows, ∃ e ∈ s.cfg.1.rtab, e.name = .plain p.1 ∧
      (∀ d, d = regData s.cfg.1 e (s.plainGet p.1 e.addr &&& e.mask) →
        exec (p.2 .read) s = .next ((s.addDiag .access e.addr d (.reg e.name)).answer (.u32 d))) ∧
      ∀ v d, d = regData s.cfg.1 e v →
        exec (p.2 (.write v)) s =
          .next (((s.plainSet p.1 e.addr (d &&& e.mask)).addDiag .access e.addr d (.reg e.name)).answer .nothing)) ∧
    ∀ r ∈ bankRangeRows, ∀ (a : BitVec 25) (k : Nat), ∀ e ∈ s.cfg.1.rtab,
      e.kind = .plain (.extra k) → e.addr = rangeAddr a s →
      (∀ d, d = entryData (rangeWidth a s) e (extraGet s.extra e.addr &&& e.mask) →
        exec (rangeInstr r a .read) s = .next ((s.addDiag .access e.addr d (.reg e.name)).answer (.u32 d))) ∧
      ∀ v d, d = entryData (rangeWidth a s) e v → ∃ t, exec (rangeInstr r a (.write v)) s = .next t ∧
        { t with extra := s.extra } = (s.addDiag .access e.addr d (.reg e.name)).answer .nothing ∧
        ∀ x, extraGet t.extra x = if x = e.addr then d &&& e.mask else extraGet s.extra x

/-- Rule R245: a palette byte reads zero-extended under its mask, and a write stores bits 7 to 0 under its
mask in that byte and in no other. -/
def Obligations.PaletteByteIsByteStorage : Prop :=
  ∀ s : State, s.fatal = false → ∀ p ∈ palRows, ∃ e ∈ s.cfg.1.rtab, e.name = .plain (.pal p.1) ∧
    (∃ t d, exec (p.2 .read) s = .next t ∧ d = (s.pal[p.1.toNat].setWidth 32 &&& e.mask : Word) ∧
      t = (s.addDiag .access e.addr d (.reg e.name)).answer (.u32 d)) ∧
    ∀ v, ∃ t, exec (p.2 (.write v)) s = .next t ∧
      (∀ k : BitVec 2, t.pal[k.toNat] = if k = p.1 then v.setWidth 8 &&& e.mask.setWidth 8 else s.pal[k.toNat]) ∧
      { t with pal := s.pal } = (s.addDiag .access e.addr (v &&& 0xFF) (.reg e.name)).answer .nothing

/-- Rules R172 and R173: a read of `PMC_INTR` returns the recomputed aggregate; a write clears exactly the
bits set in the value, logs the anomaly when bits 30 to 0 of the value claim only bits that are not
pending, and recomputes. Inside a byte window the data are one byte (rule R144; log entry 32). -/
def Obligations.AggregateRegisterIsWriteOneToClear : Prop :=
  ∀ s : State, s.fatal = false → ∃ e ∈ s.cfg.1.rtab, e.name = .computed .pmcIntr ∧
    (∀ d, d = regData s.cfg.1 e (recompute false s).pmcIntr → exec (.pmcIntr .read) s =
      .next (((recompute false s).addDiag .access e.addr d (.reg e.name)).answer (.u32 d))) ∧
    ∀ w v u, v = regData s.cfg.1 e w → u = (if v.toNat % 2 ^ 31 ≠ 0 ∧ (v &&& s.pmcIntr).toNat % 2 ^ 31 = 0
        then s.addDiag .anomalyIntr e.addr v (.reg e.name) else s) →
      exec (.pmcIntr (.write w)) s =
        .next (((recompute true { u with pmcIntr := s.pmcIntr &&& ~~~v }).addDiag .access e.addr v
          (.reg e.name)).answer .nothing)

/-- Rule R174: `PMC_INTR_EN` reads as stored; a write stores the two implemented bits and recomputes. Rule
R194 for the six banks that rule R7 gives an enable register: a read returns the enable bits, a write stores
the value and recomputes. Inside a byte window the data are one byte (rule R144; log entry 32). -/
def Obligations.EnableRegistersAreStored : Prop :=
  ∀ s : State, s.fatal = false → (∃ e ∈ s.cfg.1.rtab, e.name = .computed .pmcIntrEn ∧
    (∀ d, d = regData s.cfg.1 e s.pmcIntrEn → exec (.pmcIntrEn .read) s =
      .next ((s.addDiag .access e.addr d (.reg e.name)).answer (.u32 d))) ∧
    ∀ w v, v = regData s.cfg.1 e w → ∃ m : Word,
      (∀ k, m.getLsbD k = (v.getLsbD k && (decide (k = s.cfg.1.pmcEnHwBit) || decide (k = s.cfg.1.pmcEnSwBit)))) ∧
      exec (.pmcIntrEn (.write w)) s =
        .next (((recompute true { s with pmcIntrEn := m }).addDiag .access e.addr v (.reg e.name)).answer .nothing)) ∧
    ∀ p ∈ intrEnRows, ∃ e ∈ s.cfg.1.rtab, e.name = .computed (.bankIntrEn p.1) ∧
    (∀ d, d = regData s.cfg.1 e (s.intrEnOf p.1) → exec (p.2 .read) s =
      .next ((s.addDiag .access e.addr d (.reg e.name)).answer (.u32 d))) ∧
    ∀ w v, v = regData s.cfg.1 e w → exec (p.2 (.write w)) s =
      .next (((recompute true (s.setIntrEn p.1 v)).addDiag .access e.addr v (.reg e.name)).answer .nothing)

/-- Rule R193 for the six banks that rule R7 gives the register: a read returns the pending bits, a write
clears exactly the bits set in the value and recomputes. Inside a byte window the data are one byte (rule R144;
log entry 32). -/
def Obligations.BankPendingRegisterIsWriteOneToClear : Prop :=
  ∀ s : State, s.fatal = false → ∀ p ∈ intrRows, ∃ e ∈ s.cfg.1.rtab, e.name = .computed (.bankIntr p.1) ∧
    (∀ d, d = regData s.cfg.1 e (s.intrOf p.1) → exec (p.2 .read) s =
      .next ((s.addDiag .access e.addr d (.reg e.name)).answer (.u32 d))) ∧
    ∀ w v, v = regData s.cfg.1 e w → exec (p.2 (.write w)) s =
      .next (((recompute true (s.setIntr p.1 (s.intrOf p.1 &&& ~~~v))).addDiag .access e.addr v
        (.reg e.name)).answer .nothing)

/-- Rules R230 to R232: a divider register reads back all its bits; a write stores it and arms its timer
with the period `1000000 * FIX_QUOTIENT / (CRYSTAL_HZ * N / (M << P))`, a zero M or N replaced by 1; the
pixel clock's also announces the change of speed. Inside a byte window the data are one byte (rule R144; log
entry 32); which values `FIX_QUOTIENT` and the fields take is log entries 30, 35 and 36. -/
def Obligations.DividerWriteArmsItsTimer : Prop :=
  ∀ s : State, s.fatal = false →
    (∃ e ∈ s.cfg.1.rtab, e.name = .computed .vpll ∧
      (∀ d, d = regData s.cfg.1 e s.vpll → exec (.pramdacVpll .read) s =
        .next ((s.addDiag .access e.addr d (.reg e.name)).answer (.u32 d))) ∧
      ∀ w v (m n p : Nat), v = regData s.cfg.1 e w → m = max (fieldOf v s.cfg.1.pllM.hi s.cfg.1.pllM.lo) 1 →
        n = max (fieldOf v s.cfg.1.pllN.hi s.cfg.1.pllN.lo) 1 →
        p = fieldOf v s.cfg.1.pllP.hi s.cfg.1.pllP.lo →
        exec (.pramdacVpll (.write w)) s =
          .next ((({ s with
            vpll := v
            pclk := { armed := true, period :=
              1000000 * s.cfg.1.fixQuotient * ((m * 2 ^ p : Nat) : Rat) / (s.cfg.1.crystalHz * (n : Rat)) }
            events := s.events ++ [.speedChanged] } : State).addDiag .access e.addr v (.reg e.name)).answer
              .nothing)) ∧
    ∃ e ∈ s.cfg.1.rtab, e.name = .computed .mpll ∧
      (∀ d, d = regData s.cfg.1 e s.mpll → exec (.pramdacMpll .read) s =
        .next ((s.addDiag .access e.addr d (.reg e.name)).answer (.u32 d))) ∧
      ∀ w v (m n p : Nat), v = regData s.cfg.1 e w → m = max (fieldOf v s.cfg.1.pllM.hi s.cfg.1.pllM.lo) 1 →
        n = max (fieldOf v s.cfg.1.pllN.hi s.cfg.1.pllN.lo) 1 →
        p = fieldOf v s.cfg.1.pllP.hi s.cfg.1.pllP.lo →
        exec (.pramdacMpll (.write w)) s =
          .next ((({ s with
            mpll := v
            mclk := { armed := true, period :=
              1000000 * s.cfg.1.fixQuotient * ((m * 2 ^ p : Nat) : Rat) / (s.cfg.1.crystalHz * (n : Rat)) } }
              : State).addDiag .access e.addr v (.reg e.name)).answer .nothing)

/-- Rules R241 and R242: each half of the counter and of the alarm reads as its 32 bits, and a write ORs the
value into that half and leaves the other half and everything else. Inside a byte window the data are one byte
(rule R144; log entry 32). -/
def Obligations.CounterAndAlarmHalvesAreOrWritten : Prop :=
  ∀ s : State, s.fatal = false →
    (∃ e ∈ s.cfg.1.rtab, e.name = .computed .timeLo ∧
      (∀ d, d = regData s.cfg.1 e (s.ptimerTime.extractLsb' 0 32) →
        exec (.ptimerTimeLo .read) s = .next ((s.addDiag .access e.addr d (.reg e.name)).answer (.u32 d))) ∧
      ∀ w v, v = regData s.cfg.1 e w → exec (.ptimerTimeLo (.write w)) s =
        .next ((({ s with ptimerTime := s.ptimerTime ||| (0#32 ++ v) } : State).addDiag .access e.addr v
          (.reg e.name)).answer .nothing)) ∧
    (∃ e ∈ s.cfg.1.rtab, e.name = .computed .timeHi ∧
      (∀ d, d = regData s.cfg.1 e (s.ptimerTime.extractLsb' 32 32) →
        exec (.ptimerTimeHi .read) s = .next ((s.addDiag .access e.addr d (.reg e.name)).answer (.u32 d))) ∧
      ∀ w v, v = regData s.cfg.1 e w → exec (.ptimerTimeHi (.write w)) s =
        .next ((({ s with ptimerTime := s.ptimerTime ||| (v ++ 0#32) } : State).addDiag .access e.addr v
          (.reg e.name)).answer .nothing)) ∧
    (∃ e ∈ s.cfg.1.rtab, e.name = .computed .alarmLo ∧
      (∀ d, d = regData s.cfg.1 e (s.ptimerAlarm.extractLsb' 0 32) →
        exec (.ptimerAlarmLo .read) s = .next ((s.addDiag .access e.addr d (.reg e.name)).answer (.u32 d))) ∧
      ∀ w v, v = regData s.cfg.1 e w → exec (.ptimerAlarmLo (.write w)) s =
        .next ((({ s with ptimerAlarm := s.ptimerAlarm ||| (0#32 ++ v) } : State).addDiag .access e.addr v
          (.reg e.name)).answer .nothing)) ∧
    ∃ e ∈ s.cfg.1.rtab, e.name = .computed .alarmHi ∧
      (∀ d, d = regData s.cfg.1 e (s.ptimerAlarm.extractLsb' 32 32) →
        exec (.ptimerAlarmHi .read) s = .next ((s.addDiag .access e.addr d (.reg e.name)).answer (.u32 d))) ∧
      ∀ w v, v = regData s.cfg.1 e w → exec (.ptimerAlarmHi (.write w)) s =
        .next ((({ s with ptimerAlarm := s.ptimerAlarm ||| (v ++ 0#32) } : State).addDiag .access e.addr v
          (.reg e.name)).answer .nothing)

/-! ### The interrupt aggregator -/

/-- Rule R176: the aggregate's bits below 31 are the routed positions of the banks with a pending enabled
bit, bit 31 is kept, the line and the suppressed record follow the procedure, nothing else changes. -/
def Obligations.RecomputeFollowsTheProcedure : Prop :=
  ∀ (sendNow : Bool) (s t : State) (wanted : Prop), t = recompute sendNow s →
    (wanted ↔ (t.pmcIntr.toNat % 2 ^ 31 ≠ 0 ∧ s.pmcIntrEn.getLsbD s.cfg.1.pmcEnHwBit = true) ∨
      (t.pmcIntr.getLsbD 31 = true ∧ s.pmcIntrEn.getLsbD s.cfg.1.pmcEnSwBit = true)) →
    (∀ k, k < 31 → (t.pmcIntr.getLsbD k = true ↔
      ∃ b, pmcBitOf s.cfg.1.pmcBit b = some k ∧ s.intrOf b &&& s.intrEnOf b ≠ 0)) ∧
    t.pmcIntr.getLsbD 31 = s.pmcIntr.getLsbD 31 ∧
    (s.pmcIntrEn = 0 → t.irqLine = false ∧ t.diag = s.diag) ∧
    (s.pmcIntrEn ≠ 0 → sendNow = false → t.irqLine = s.irqLine ∧ t.diag = s.diag) ∧
    (s.pmcIntrEn ≠ 0 → sendNow = true → t.pmcIntr = 0 → t.irqLine = false ∧ t.diag = s.diag) ∧
    (s.pmcIntrEn ≠ 0 → sendNow = true → t.pmcIntr ≠ 0 → wanted → t.irqLine = true ∧ t.diag = s.diag) ∧
    (s.pmcIntrEn ≠ 0 → sendNow = true → t.pmcIntr ≠ 0 → ¬ wanted → t.irqLine = s.irqLine ∧
      t.diag = s.diag ++ [⟨.irqSuppressed, (computedEntry s.cfg.1 .pmcIntr).addr, t.pmcIntr,
        .reg (.computed .pmcIntr)⟩]) ∧
    { t with pmcIntr := s.pmcIntr, irqLine := s.irqLine, diag := s.diag } = s

/-- Rules R178 and R179: `RAISE` ORs bits into a bank's pending bits and recomputes; `SWI_RAISE` sets bit 31
of the aggregate and recomputes; neither changes anything else. -/
def Obligations.RaiseSetsPendingBits : Prop :=
  ∀ (s : State) (b : IntrBank) (bits : Word), s.fatal = false →
    exec (.raise b bits) s = .next ((recompute true (s.setIntr b (s.intrOf b ||| bits))).answer .nothing) ∧
    exec .swiRaise s =
      .next ((recompute true { s with pmcIntr := s.pmcIntr ||| BitVec.ofNat 32 (2 ^ 31) }).answer .nothing)

/-- Rule R180, the aggregation property: from a state with every bank idle, bit 31 clear and the line low,
bank A enabled and raised leaves exactly its assigned bit, and the line high exactly when the
hardware-origin enable bit is set. -/
def Obligations.RaisedBankShowsItsAssignedBit : Prop :=
  ∀ (s : State) (b : IntrBank) (k : Nat), s.fatal = false → (∀ b', s.intrOf b' = 0) → s.intrEnOf b = 1 →
    pmcBitOf s.cfg.1.pmcBit b = some k → s.pmcIntr.getLsbD 31 = false → s.irqLine = false →
    ∃ t, exec (.raise b 1) s = .next t ∧ t.pmcIntr = BitVec.ofNat 32 (2 ^ k) ∧
      (t.irqLine = true ↔ s.pmcIntrEn.getLsbD s.cfg.1.pmcEnHwBit = true)

/-- Rule R173 corner case (b) and rule R193: the same write-1-to-clear twice in a row changes nothing but
`DIAG` the second time, on the aggregate and on a bank's pending bits. -/
def Obligations.SecondWriteOneToClearIsANoOp : Prop :=
  ∀ (s : State) (v : Word), s.fatal = false →
    (∃ t u, exec (.pmcIntr (.write v)) s = .next t ∧ exec (.pmcIntr (.write v)) t = .next u ∧
      { u with diag := t.diag } = t) ∧
    ∀ p ∈ intrRows, ∃ t u, exec (p.2 (.write v)) s = .next t ∧ exec (p.2 (.write v)) t = .next u ∧
      { u with diag := t.diag } = t

/-- Rule R153: what a write of a register without side effects stores, the next read returns, under the
register's mask: every `Plain` entry, which is the three 32-bit ones, the four palette bytes and those a
configuration adds, and `PMC_INTR_EN` (its two bits), the six bank enables, the two divider registers, and the
straps where overwrite is supported. Inside a byte window what is written and read is one byte (rule R144; log
entries 12 and 32). -/
def Obligations.ReadReturnsWhatWasWritten : Prop :=
  ∀ (s : State) (v : Word), s.fatal = false →
    (∀ p ∈ plainRows, ∃ e ∈ s.cfg.1.rtab, e.name = .plain p.1 ∧ ∃ t u, exec (p.2 (.write v)) s = .next t ∧
      exec (p.2 .read) t = .next u ∧ u.reply = .u32 (regData s.cfg.1 e v &&& e.mask)) ∧
    (∀ p ∈ palRows, ∃ e ∈ s.cfg.1.rtab, e.name = .plain (.pal p.1) ∧ ∃ t u,
      exec (p.2 (.write v)) s = .next t ∧ exec (p.2 .read) t = .next u ∧ u.reply = .u32 (v &&& 0xFF &&& e.mask)) ∧
    (∀ r ∈ bankRangeRows, ∀ (a : BitVec 25) (k : Nat), ∀ e ∈ s.cfg.1.rtab,
      e.kind = .plain (.extra k) → e.addr = rangeAddr a s → ∃ t u,
      exec (rangeInstr r a (.write v)) s = .next t ∧ exec (rangeInstr r a .read) t = .next u ∧
      u.reply = .u32 (entryData (rangeWidth a s) e v &&& e.mask)) ∧
    (∃ e ∈ s.cfg.1.rtab, e.name = .computed .pmcIntrEn ∧ ∃ t u, exec (.pmcIntrEn (.write v)) s = .next t ∧
      exec (.pmcIntrEn .read) t = .next u ∧ u.reply = .u32 (regData s.cfg.1 e v &&& enMask s.cfg.1)) ∧
    (∀ p ∈ intrEnRows, ∃ e ∈ s.cfg.1.rtab, e.name = .computed (.bankIntrEn p.1) ∧ ∃ t u,
      exec (p.2 (.write v)) s = .next t ∧ exec (p.2 .read) t = .next u ∧ u.reply = .u32 (regData s.cfg.1 e v)) ∧
    (∃ e ∈ s.cfg.1.rtab, e.name = .computed .vpll ∧ ∃ t u, exec (.pramdacVpll (.write v)) s = .next t ∧
      exec (.pramdacVpll .read) t = .next u ∧ u.reply = .u32 (regData s.cfg.1 e v)) ∧
    (∃ e ∈ s.cfg.1.rtab, e.name = .computed .mpll ∧ ∃ t u, exec (.pramdacMpll (.write v)) s = .next t ∧
      exec (.pramdacMpll .read) t = .next u ∧ u.reply = .u32 (regData s.cfg.1 e v)) ∧
    (s.cfg.1.strapOverwrite = true → ∃ e ∈ s.cfg.1.rtab, e.name = .computed .straps ∧ ∃ t u,
      exec (.pstrapsStraps (.write v)) s = .next t ∧ exec (.pstrapsStraps .read) t = .next u ∧
      u.reply = .u32 (regData s.cfg.1 e v))

/-! ### The real-mode access shim -/

/-- Rules R211 to R214: `RMA_SETMODE` stores the mode and nothing else; with `mode[0]` clear a read of one of
the four ports returns a signature byte at an offset below 4 and 0 at any other, and changes nothing; a read
of any other port returns a draw. That a read counts the draw is the model's own (log entry 9). -/
def Obligations.ModeSelectsTheSignature : Prop :=
  ∀ (s : State) (port : Half), s.fatal = false →
    (∀ v, exec (.rmaSetmode v) s = .next { s with rmaMode := v, reply := .nothing }) ∧
    (isRmaPort s.cfg.1 port = true → s.rmaMode.getLsbD 0 = false → ∀ off,
      off = 2 * (s.rmaMode &&& (s.cfg.1.modeMax - 1)).toNat + (port.toNat - s.cfg.1.rmaPortBase.toNat) →
      exec (.iord8 port) s =
        .next { s with reply := .u8 (if off < 4 then sigByte s.cfg.1.rmaSig off else 0) }) ∧
    (isRmaPort s.cfg.1 port = false →
      exec (.iord8 port) s = .next { s with draws := s.draws + 1, reply := .u8 (Config.portRead s.draws) })

/-- Rules R215 and R221: with `mode[0]` set a read of one of the four ports performs the one 32-bit read at
the accumulated address plus the select, dword-aligned, and returns the port's lane of it; a target
inside the shim's own window is unmapped, and its record carries the address of rule R215 (against rule R321's
table: log entry 17). Inside a byte window the dword read is one byte, so the lanes above 0 are 0 (log entry 32
for a target that is no byte register). -/
def Obligations.PortReadPassesThrough : Prop :=
  ∀ (s : State) (port : Half) (sel lane : Nat) (a : Word), s.fatal = false → isRmaPort s.cfg.1 port = true →
    s.rmaMode.getLsbD 0 = true → sel = 2 * (s.rmaMode &&& (s.cfg.1.modeMax - 1)).toNat →
    lane = port.toNat - s.cfg.1.rmaPortBase.toNat → a = (s.rmaAddr + BitVec.ofNat 32 sel) &&& ~~~3 →
    (targetOf s.cfg.1 (alignAddr s.cfg.1 a) ≠ .rmaMmio →
      ∃ t d, exec (.mrd32 a) s = .next t ∧ t.reply = .u32 d ∧
        exec (.iord8 port) s = .next { t with reply := .u8 (byteOf d lane) } ∧
        (s.cfg.1.inByteWindow (maskAddr s.cfg.1 a) = true → lane ≠ 0 → byteOf d lane = 0)) ∧
    (targetOf s.cfg.1 (alignAddr s.cfg.1 a) = .rmaMmio →
      exec (.iord8 port) s =
        .next { s with
          diag := s.diag ++ [{ kind := .unmapped, addr := a, value := 0, name := .none }]
          reply := .u8 0 })

/-- Rules R216, R217, R219, R220: an address lane, and a data lane below 3, changes that lane of its
accumulator and nothing else, so no arbiter write happens; a write of a port that is not the shim's
changes nothing. -/
def Obligations.PartialBurstWritesNothing : Prop :=
  ∀ (s : State) (port : Half) (v : Byte) (sel lane : Nat), s.fatal = false →
    (isRmaPort s.cfg.1 port = false → exec (.iowr8 port v) s = .next { s with reply := .nothing }) ∧
    (isRmaPort s.cfg.1 port = true → sel = 2 * (s.rmaMode &&& (s.cfg.1.modeMax - 1)).toNat →
      lane = port.toNat - s.cfg.1.rmaPortBase.toNat →
      (sel = 0 → ∃ w : Word, (∀ k, k < 4 → byteOf w k = if k = lane then v else byteOf s.rmaAddr k) ∧
        exec (.iowr8 port v) s = .next { s with rmaAddr := w, reply := .nothing }) ∧
      (sel ≠ 0 → lane ≠ 3 → ∃ w : Word, (∀ k, k < 4 → byteOf w k = if k = lane then v else byteOf s.rmaData k) ∧
        exec (.iowr8 port v) s = .next { s with rmaData := w, reply := .nothing }))

/-- Rules R217, R218, R220, R221: data lane 3 completes exactly one write, at the assembled address with the
assembled data, and then advances the address by 4 where the mode requests it; a commit into the
shim's own window is unmapped and still advances, and its record carries `RMA.addr` as rule R218 has it (against
rule R321's table: log entry 17). -/
def Obligations.FourthDataByteCommitsOnce : Prop :=
  ∀ (s : State) (port : Half) (v : Byte) (w : Word) (next : Word), s.fatal = false →
    isRmaPort s.cfg.1 port = true → (s.rmaMode &&& (s.cfg.1.modeMax - 1)).toNat ≠ 0 →
    port.toNat = s.cfg.1.rmaPortBase.toNat + 3 →
    (∀ k, k < 4 → byteOf w k = if k = 3 then v else byteOf s.rmaData k) →
    next = (if s.rmaMode &&& s.cfg.1.modeAutoinc ≠ 0 then s.rmaAddr + 4 else s.rmaAddr) →
    (targetOf s.cfg.1 (alignAddr s.cfg.1 s.rmaAddr) ≠ .rmaMmio →
      ∃ t, exec (.mwr32 s.rmaAddr w) { s with rmaData := w } = .next t ∧
        exec (.iowr8 port v) s = .next { t with rmaAddr := next }) ∧
    (targetOf s.cfg.1 (alignAddr s.cfg.1 s.rmaAddr) = .rmaMmio →
      exec (.iowr8 port v) s =
        .next { s with
          rmaData := w
          rmaAddr := next
          diag := s.diag ++ [{ kind := .unmapped, addr := s.rmaAddr, value := w, name := .none }]
          reply := .nothing })

/-- The port operations do what the RMA row their offset selects does (rules R109, R211 to R217), where the
offset fits the table's five bits. The 32-bit MMIO operations inside `RMA_MMIO_WINDOW` (rule R150) do so too, at
the byte offset in the window, without the select: a read returns the byte zero-extended, a write takes bits 7
to 0; at an offset the table's five bits do not hold, the dword part of the offset is added to the address of a
read through the shim, and every data lane is one of the first four. -/
def Obligations.PortOperationIsItsRmaRow : Prop :=
  (∀ (s : State) (port : Half) (v : Byte) (off : Nat), isRmaPort s.cfg.1 port = true →
    off = 2 * (s.rmaMode &&& (s.cfg.1.modeMax - 1)).toNat + (port.toNat - s.cfg.1.rmaPortBase.toNat) →
    off < 32 →
    exec (.iord8 port) s = exec (rmaReadRow s.rmaMode off) s ∧
    exec (.iowr8 port v) s = exec (rmaWriteRow off v) s) ∧
  ∀ (s : State) (a v : Word) (r : Range) (o : Nat), s.fatal = false → s.cfg.1.rmaMmioWindow = some r →
    r.has (alignAddr s.cfg.1 a) = true → o = (alignAddr s.cfg.1 a - r.lo).toNat →
    (s.rmaMode.getLsbD 0 = false → exec (.mrd32 a) s =
      .next { s with reply := .u32 (if o < 4 then (sigByte s.cfg.1.rmaSig o).setWidth 32 else 0) }) ∧
    (s.rmaMode.getLsbD 0 = true → ∃ t d,
      exec (.rmaRdPass (BitVec.ofNat 5 (o % 4))) { s with rmaAddr := s.rmaAddr + BitVec.ofNat 32 (o / 4 * 4) } =
        .next t ∧ t.reply = .u8 d ∧
      exec (.mrd32 a) s = .next { t with rmaAddr := s.rmaAddr, reply := .u32 (d.setWidth 32) }) ∧
    exec (.mwr32 a v) s = exec (if o < 4 then .rmaWrAddr (BitVec.ofNat 2 o) (v.setWidth 8)
      else .rmaWrData (BitVec.ofNat 5 (4 + o % 4)) (v.setWidth 8)) s

/-- Rules R214 to R218, R220 and R221 for the RMA rows: a read with `mode[0]` clear; a read through the shim; an
address lane; a data lane below 3; data lane 3, which completes one write and then advances the address
where the mode requests it. The record of an access into the shim's own window carries the address of rules R215
and R218 (against rule R321's table: log entry 17). -/
def Obligations.RmaRowsDoWhatTheirOffsetSelects : Prop :=
  ∀ (s : State) (lane : BitVec 2) (off : BitVec 5) (v : Byte), s.fatal = false →
    (s.rmaMode.getLsbD 0 = false →
      exec (.rmaRdSig lane) s = .next { s with reply := .u8 (sigByte s.cfg.1.rmaSig lane.toNat) } ∧
      (4 ≤ off.toNat → exec (.rmaRdZero off) s = .next { s with reply := .u8 0 })) ∧
    (s.rmaMode.getLsbD 0 = true → ∃ t d a, exec (.rmaRdPass off) s = .next t ∧
      t.reply = .u8 (byteOf d (off.toNat % 4)) ∧
      a = ((s.rmaAddr + BitVec.ofNat 32 (off.toNat / 4 * 4)) &&& ~~~3 : Word) ∧
      (targetOf s.cfg.1 (alignAddr s.cfg.1 a) ≠ .rmaMmio →
        exec (.mrd32 a) s = .next { t with reply := .u32 d }) ∧
      (targetOf s.cfg.1 (alignAddr s.cfg.1 a) = .rmaMmio →
        d = 0 ∧ { t with reply := s.reply } = s.addDiag .unmapped a 0 .none)) ∧
    (∃ w : Word, (∀ k, k < 4 → byteOf w k = if k = lane.toNat then v else byteOf s.rmaAddr k) ∧
      exec (.rmaWrAddr lane v) s = .next { s with rmaAddr := w, reply := .nothing }) ∧
    ∃ w next : Word, (∀ k, k < 4 → byteOf w k = if k = off.toNat % 4 then v else byteOf s.rmaData k) ∧
      (off.toNat % 4 ≠ 3 → exec (.rmaWrData off v) s = .next { s with rmaData := w, reply := .nothing }) ∧
      next = (if s.rmaMode &&& s.cfg.1.modeAutoinc ≠ 0 then s.rmaAddr + 4 else s.rmaAddr) ∧
      (off.toNat % 4 = 3 → targetOf s.cfg.1 (alignAddr s.cfg.1 s.rmaAddr) ≠ .rmaMmio →
        ∃ t, exec (.mwr32 s.rmaAddr w) { s with rmaData := w } = .next t ∧
          exec (.rmaWrData off v) s = .next { t with rmaAddr := next }) ∧
      (off.toNat % 4 = 3 → targetOf s.cfg.1 (alignAddr s.cfg.1 s.rmaAddr) = .rmaMmio →
        ∃ t, exec (.rmaWrData off v) s = .next t ∧ { t with reply := s.reply } =
          { s with rmaData := w, rmaAddr := next }.addDiag .unmapped s.rmaAddr w .none)

/-! ### Timers -/

/-- Rule R233: the pixel-clock expiry changes nothing. Rules R234, R243, R244: a memory-clock expiry that
finds its timer not armed, or a zero numerator or denominator, changes nothing; any other adds
`floor(elapsed * num / den)` modulo 2^64, and where the counter has reached the alarm sets the alarm
bit and recomputes. -/
def Obligations.TimerExpiryAdvancesTheCounter : Prop :=
  ∀ (s : State) (elapsed T : Nat) (u : State), s.fatal = false →
    exec .tickPclk s = .next { s with reply := .nothing } ∧
    (s.mclk.armed = false ∨ s.ptimerNum = 0 ∨ s.ptimerDen = 0 →
      exec (.tickMclk elapsed) s = .next { s with reply := .nothing }) ∧
    (s.mclk.armed = true → s.ptimerNum ≠ 0 → s.ptimerDen ≠ 0 →
      T = (s.ptimerTime.toNat + elapsed * s.ptimerNum.toNat / s.ptimerDen.toNat) % 2 ^ 64 →
      u = { s with ptimerTime := BitVec.ofNat 64 T } →
      (T < s.ptimerAlarm.toNat → exec (.tickMclk elapsed) s = .next { u with reply := .nothing }) ∧
      (s.ptimerAlarm.toNat ≤ T → exec (.tickMclk elapsed) s =
        .next ((recompute true (u.setIntr .ptimer (s.intrOf .ptimer |||
          BitVec.ofNat 32 (2 ^ s.cfg.1.ptimerAlarmBit)))).answer .nothing)))

/-! ### PGRAPH -/

/-- Under the numbers of the opcode table `METHOD` does what the METHOD row its operands select does (rules
R109, R260). The operands are taken in the 13 and 5 bits of REFCFG's method and class ids; that a bit presented
above a width is dropped is the model's own (log entry 29). -/
def Obligations.MethodIsItsDispatchRow : Prop :=
  ∀ (s : State) (cls : Word) (sub : Submission), s.cfg = refCfg16 ∨ s.cfg = refCfg32 →
    exec (.method cls sub) s = exec (methodRow cls sub) s

/-- Rules R260 and R263, with rule R282: a generic method sets the notify context or is logged, of whatever
class, and then the notifier is signalled if one is configured. Rules R5 and R94: the tuple has the widths
`W_METHOD`, `W_CHAN` and `W_SUBCHAN` of the configuration; that a bit presented above a width is dropped is the
model's own (log entry 29). -/
def Obligations.GenericMethodSetsTheNotifier : Prop :=
  ∀ (s : State) (cls : Word) (sub : Submission) (m ch sc : Word), s.fatal = false →
    m = BitVec.ofNat 32 (sub.m.toNat % 2 ^ s.cfg.1.wMethod) →
    ch = BitVec.ofNat 32 (sub.ch.toNat % 2 ^ s.cfg.1.wChan) →
    sc = BitVec.ofNat 32 (sub.sc.toNat % 2 ^ s.cfg.1.wSubchan) →
    narrowSub s.cfg.1 sub = { sub with m := m, ch := ch, sc := sc } ∧
    (m = s.cfg.1.mSetNotifyCtx → exec (.mGeneric cls sub) s =
      .next { s with
        notifyCtx := some sub.param
        events := s.events ++ [.notify sub.param ch sc m]
        reply := .nothing }) ∧
    (m ≠ s.cfg.1.mSetNotifyCtx → exec (.mGeneric cls sub) s =
      .next { s with
        diag := s.diag ++ [{ kind := .unimplMethod, addr := m, value := sub.param, name := .generic }]
        events := s.events ++ (match s.notifyCtx with
          | none => []
          | some c => [.notify c ch sc m])
        reply := .nothing }) ∧
    (m < s.cfg.1.tGeneric → exec (.method cls sub) s = exec (.mGeneric cls sub) s)

/-- Rule R264: a class with no handler logs one record; under policy `fatal` the block is stopped and
nothing is signalled, under `log_noop` the notifier runs and nothing else changes. The class id is taken in
the configuration's width `W_CLASS` (rules R5, R94; log entry 29). -/
def Obligations.UnknownClassStopsOrIsLogged : Prop :=
  ∀ (s : State) (cls : Word) (sub u : Submission) (c : Word) (l : List DiagRecord), s.fatal = false →
    u = narrowSub s.cfg.1 sub → c = BitVec.ofNat 32 (cls.toNat % 2 ^ s.cfg.1.wClass) →
    l = s.diag ++ [{ kind := .fatalClass, addr := c, value := sub.param, name := .none }] →
    (s.cfg.1.unknownClassPolicy = .fatal → exec (.mUnknownClass cls sub) s =
      .next { s with diag := l, fatal := true, reply := .nothing }) ∧
    (s.cfg.1.unknownClassPolicy = .logNoop → exec (.mUnknownClass cls sub) s =
      .next { s with
        diag := l
        events := s.events ++ (match s.notifyCtx with
          | none => []
          | some x => [.notify x u.ch u.sc u.m])
        reply := .nothing }) ∧
    (¬ u.m < s.cfg.1.tGeneric → (∀ p ∈ s.cfg.1.classTab, p.1 ≠ c) →
      exec (.method cls sub) s = exec (.mUnknownClass cls sub) s)

/-- Rules R266, R267, R269, R270 with R281 and R282: each state-setting class stores its parameter in its
own fields, logs a method it does not list, and then the notifier runs. The tuple is taken in the
configuration's widths (log entry 29); that CLIP's first method wins where a configuration gives both one id is
log entry 24. -/
def Obligations.ParameterClassesStoreTheirParameter : Prop :=
  ∀ (s : State) (sub u : Submission) (mm : MethodMap) (unlisted : Handler → State), s.fatal = false →
    u = narrowSub s.cfg.1 sub → mm = s.cfg.1.methods →
    (∀ h, unlisted h = s.addDiag .unimplMethod u.m sub.param (.cls h)) →
    exec (.mBeta sub) s = .next ((notify u (if u.m = mm.setBeta
      then { s with pg := { s.pg with beta := sub.param } } else unlisted .beta)).answer .nothing) ∧
    exec (.mRop sub) s = .next ((notify u (if u.m = mm.setRop
      then { s with pg := { s.pg with rop := sub.param.extractLsb' 0 8 } } else unlisted .rop)).answer .nothing) ∧
    exec (.mPlane sub) s = .next ((notify u (if u.m = mm.planeMask
      then { s with pg := { s.pg with planeMask := sub.param } } else unlisted .plane)).answer .nothing) ∧
    exec (.mClip sub) s = .next ((notify u (
      if u.m = mm.clipPoint then { s with pg := { s.pg with
        clipX := sub.param.extractLsb' 0 16, clipY := sub.param.extractLsb' 16 16 } }
      else if u.m = mm.clipSize then { s with pg := { s.pg with
        clipW := sub.param.extractLsb' 0 16, clipH := sub.param.extractLsb' 16 16 } }
      else unlisted .clip)).answer .nothing)

/-- Rules R268 and R271 with R261, R281 and R282: CHROMA and PATTERN expand a colour with the format of the
grobj fetched from RAMIN by this method; the shape takes two bits and the bitmap's halves replace. The tuple is
taken in the configuration's widths (log entry 29); that the first method of PATTERN listed in rule R271 wins
where a configuration gives two one id is log entry 24. -/
def Obligations.ColourClassesExpandWithTheFetchedFormat : Prop :=
  ∀ (s : State) (sub u : Submission) (mm : MethodMap) (col : Color) (unlisted : Handler → State),
    s.fatal = false → u = narrowSub s.cfg.1 sub → mm = s.cfg.1.methods →
    col = Config.expand (grobjFmt s.cfg.1 (grobjFetch sub.ctx s)) sub.param →
    (∀ h, unlisted h = s.addDiag .unimplMethod u.m sub.param (.cls h)) →
    exec (.mChroma sub) s = .next ((notify u (if u.m = mm.chromaColor
      then { s with pg := { s.pg with chroma := col } } else unlisted .chroma)).answer .nothing) ∧
    exec (.mPattern sub) s = .next ((notify u (
      if u.m = mm.patShape then { s with pg := { s.pg with patShape := sub.param.extractLsb' 0 2 } }
      else if u.m = mm.patColor0 then { s with pg := { s.pg with patColor0 := col } }
      else if u.m = mm.patColor1 then { s with pg := { s.pg with patColor1 := col } }
      else if u.m = mm.patBitmap0 then { s with pg := { s.pg with
        patBitmap := s.pg.patBitmap.extractLsb' 32 32 ++ sub.param } }
      else if u.m = mm.patBitmap1 then { s with pg := { s.pg with
        patBitmap := sub.param ++ s.pg.patBitmap.extractLsb' 0 32 } }
      else unlisted .pattern)).answer .nothing)

/-- Rule R272 under REFCFG's method ids: RECT sets its colour, sets point `i`, or with size `i` fills
row by row, left to right, from point `i`; any other method is logged; then the notifier runs. The tuple is
taken in the configuration's widths (log entry 29). -/
def Obligations.RectFillsRowByRow : Prop :=
  ∀ (s : State) (sub u : Submission) (g : Grobj) (told : State → Outcome), s.fatal = false →
    s.cfg.1.methods = refMethods → u = narrowSub s.cfg.1 sub → g = grobjFetch sub.ctx s →
    (∀ w, told w = .next ((notify u w).answer .nothing)) →
    (u.m.toNat = 0x304 → exec (.mRect sub) s =
      told { s with pg := { s.pg with rectColor := Config.expand (grobjFmt s.cfg.1 g) sub.param } }) ∧
    (∀ i : Fin 16, u.m.toNat = 0x400 + 8 * i.val → exec (.mRect sub) s =
      told { s with pg := { s.pg with
        rectX := s.pg.rectX.set i (sub.param.extractLsb' 0 16)
        rectY := s.pg.rectY.set i (sub.param.extractLsb' 16 16) } }) ∧
    (∀ i : Fin 16, u.m.toNat = 0x404 + 8 * i.val → exec (.mRect sub) s =
      told ((List.range (sub.param.extractLsb' 16 16).toNat).foldl (fun q dy =>
        (List.range (sub.param.extractLsb' 0 16).toNat).foldl (fun w dx =>
          pixel g (s.pg.rectX[i].toNat + dx) (s.pg.rectY[i].toNat + dy) s.pg.rectColor w) q) s)) ∧
    (u.m.toNat ≠ 0x304 → (∀ i, i < 16 → u.m.toNat ≠ 0x400 + 8 * i ∧ u.m.toNat ≠ 0x404 + 8 * i) →
      exec (.mRect sub) s =
        told (s.addDiag .unimplMethod u.m sub.param (.cls .rect)))

/-- Rules R284, R285, R287: a pixel is written exactly when it lies in the clip closed at both ends, the
chroma test passes and the pattern gives a colour; then the value is the uninterpreted one of the bytes
read from VRAM. -/
def Obligations.PixelIsWrittenWhenEveryTestPasses : Prop :=
  ∀ (s : State) (g : Grobj) (x y : Nat) (src : Color) (passes : Prop),
    (passes ↔ (s.pg.clipX.toNat ≤ x ∧ x ≤ s.pg.clipX.toNat + s.pg.clipW.toNat) ∧
      (s.pg.clipY.toNat ≤ y ∧ y ≤ s.pg.clipY.toNat + s.pg.clipH.toNat) ∧
      ¬ (chromaEn s.cfg.1 g = true ∧ s.pg.chroma.a ≠ 0 ∧ Config.down g src = Config.down g s.pg.chroma)) →
    (∀ pat, passes → patternSelect s.pg x y = some pat → pixel g x y src s =
      s.memWrite .vram (Config.pixAddr s.pg.blackBox g x y).1 (Config.pixAddr s.pg.blackBox g x y).2
        (Config.ropBlendPack s.pg.rop s.pg.beta s.pg.planeMask g src pat
          (s.memRead .vram (Config.pixAddr s.pg.blackBox g x y).1 (Config.pixAddr s.pg.blackBox g x y).2))) ∧
    (¬ passes ∨ patternSelect s.pg x y = none → pixel g x y src s = s)

/-- Rule R286: the bitmap bit that a position selects by the shape picks one of two colours; a colour of
zero alpha, and the reserved shape, suppress the write. -/
def Obligations.PatternSelectsByPosition : Prop :=
  ∀ (p : Pgraph) (x y i : Nat) (c : Color),
    (p.patShape = 3 → patternSelect p x y = none) ∧
    (p.patShape ≠ 3 →
      i = (if p.patShape = 0 then y % 8 * 8 + x % 8 else if p.patShape = 1 then x % 64 else y % 64) →
      c = (if p.patBitmap.getLsbD i then p.patColor1 else p.patColor0) →
      patternSelect p x y = if c.a = 0 then none else some c)

/-- Rules R291 and R292: where the colour of every bitmap bit has zero alpha, and where the chroma key is
enabled in the grobj, of non-zero alpha and the fill's own colour, whatever the pattern holds, a fill of any
size leaves everything but the notifier's event unchanged. The method ids are REFCFG's, and the tuple is taken in
the configuration's widths (log entry 29). -/
def Obligations.SuppressedFillChangesNothing : Prop :=
  ∀ (s : State) (sub u : Submission) (i : Fin 16), s.fatal = false → s.cfg.1.methods = refMethods →
    u = narrowSub s.cfg.1 sub →
    u.m.toNat = 0x404 + 8 * i.val →
    ((∀ k, k < 64 → (if s.pg.patBitmap.getLsbD k then s.pg.patColor1 else s.pg.patColor0).a = 0) →
      exec (.mRect sub) s = .next ((notify u s).answer .nothing)) ∧
    (chromaEn s.cfg.1 (grobjFetch sub.ctx s) = true → s.pg.chroma.a ≠ 0 → s.pg.rectColor = s.pg.chroma →
      exec (.mRect sub) s = .next ((notify u s).answer .nothing))

/-- Rules R273 to R280 and R283: each of the eight unopened classes, and a handler a class table adds (rule
R111; that it is of this form is log entry 31), runs `raster[h]` on the state as it stands when the step
begins, with the fetched grobj, stores the new `PGRAPH.opaque` and then carries out the requests in list
order: a pixel with every test, or a raw store. It changes `PGRAPH.opaque`, the VRAM bytes that a request
addresses and the events alone, so it never stops the block, writes a bank register or touches the line. The tuple
and the class id are taken in the configuration's widths (log entry 29). -/
def Obligations.BlackBoxClassesChangeOnlyVram : Prop :=
  ∀ (s : State) (sub u : Submission) (g : Grobj) (h : RasterClass) (i : Instr) (cls : Word) (o : BlackBox)
    (reqs : List Request), s.fatal = false → u = narrowSub s.cfg.1 sub → g = grobjFetch sub.ctx s →
    (∃ p ∈ rasterRows, h = p.1 ∧ i = p.2 sub) ∨
      (i = .method cls sub ∧ ¬ u.m < s.cfg.1.tGeneric ∧
        handlerOf s.cfg.1.classTab (narrowClass s.cfg.1 cls) = some (.raster h)) →
    (o, reqs) = Config.raster h s.pg g { m := u.m, param := u.param } (fun k => s.byteAt .vram k)
      (fun k => s.byteAt .ramin k) →
    ∃ t, exec i s = .next t ∧
      t.vram = (reqs.foldl (fun (w : State) (r : Request) => match r with
        | .pix x y src => pixel g x y src w
        | .raw off n v => w.memWrite .vram off n v) { s with pg := { s.pg with blackBox := o } }).vram ∧
      (∀ k, (∀ r : Request, r ∈ reqs → ∀ j, j < (match r with
            | .pix x y _ => (Config.pixAddr o g x y).2.bytes
            | .raw _ n _ => n.bytes) →
          k % s.cfg.1.vramSize ≠ ((match r with
            | .pix x y _ => (Config.pixAddr o g x y).1
            | .raw off _ _ => off) + j) % s.cfg.1.vramSize) →
        t.byteAt .vram k = s.byteAt .vram k) ∧
      t.pg = { s.pg with blackBox := o } ∧
      t.events = s.events ++ (match s.notifyCtx with
        | none => []
        | some c => [.notify c u.ch u.sc u.m]) ∧
      { t with pg := s.pg, vram := s.vram, events := s.events } = { s with reply := .nothing }

/-- Rules R79, R148, R261: a store to RAMIN through the bus is what the next grobj fetch reads, and it
changes no other word of the grobj (under REFCFG-32, for a grobj inside the 1 MB of RAMIN). -/
def Obligations.GrobjIsReadFreshFromRamin : Prop :=
  ∀ (s : State) (ctx : BitVec 28) (j : BitVec 2) (v : Word), s.fatal = false → s.cfg = refCfg32 →
    ctx.toNat < 2 ^ 16 →
    ∃ t, exec (.mwr32 (BitVec.ofNat 32 (0x1C00000 + 16 * ctx.toNat + 4 * j.toNat)) v) s = .next t ∧
      ∀ k : BitVec 2, grobjWord (grobjFetch ctx t) k = if k = j then v else grobjWord (grobjFetch ctx s) k

/-! ### PCI configuration, the windows, the linear framebuffer -/

/-- Rules R300 to R302: a configuration read of function 0 returns the byte and of any other 0xFF, changing
nothing; a write of function 0 above the ids stores the byte, less the hardwired 0 bits of a BAR, and
any other write changes nothing. -/
def Obligations.ConfigurationBytesAreStored : Prop :=
  ∀ (s : State) (fn off v : Byte), s.fatal = false →
    exec (.cfgrd8 fn off) s = .next { s with reply := .u8 (if fn = 0 then s.pciByte off else 0xFF) } ∧
    (fn ≠ 0 ∨ off.toNat ≤ 3 → exec (.cfgwr8 fn off v) s = .next { s with reply := .nothing }) ∧
    (fn = 0 → 3 < off.toNat → ∃ t, exec (.cfgwr8 fn off v) s = .next t ∧
      { t with pci := s.pci } = { s with reply := .nothing } ∧
      ∀ o, t.pciByte o =
        if o ≠ off then s.pciByte o
        else if 0x10 ≤ off.toNat ∧ off.toNat ≤ 0x13 then
          v &&& ~~~BitVec.ofNat 8 ((2 ^ s.cfg.1.addrBits - 1) / 2 ^ (8 * (off.toNat - 0x10)))
        else if 0x14 ≤ off.toNat ∧ off.toNat ≤ 0x17 then
          v &&& ~~~BitVec.ofNat 8 ((s.cfg.1.vramSize - 1) / 2 ^ (8 * (off.toNat - 0x14)))
        else v)

/-- Rule R306: a read of the mirror returns the four configuration bytes at its offset, and a write does what
four configuration writes do, lowest offset first. Rule R131: whether the access lies in a byte window is asked
once, of the address as presented. The model's choices are: that inside a byte window it is one configuration byte,
where rule R144 speaks of byte registers and rule R306 of four bytes (log entry 32); that an offset which is no
multiple of 4 is taken as it comes (log entry 34); which low end counts where the mirror has two ranges (log entry
33). -/
def Obligations.PciMirrorIsTheConfigurationBytes : Prop :=
  ∀ (s : State) (a : BitVec 25) (v : Word) (o : Byte) (inside : Bool), s.fatal = false →
    inside = s.cfg.1.inByteWindow (maskAddr s.cfg.1 (a.setWidth 32)) →
    o = BitVec.ofNat 8 (rangeAddr a s - regionLo s.cfg.1.amap .pbusPci).toNat →
    (inside = true →
      exec (.rangePbusPci a .read) s = .next (s.answer (.u32 ((s.pciByte o).setWidth 32))) ∧
      exec (.rangePbusPci a (.write v)) s = exec (.cfgwr8 0 o (byteOf v 0)) s) ∧
    (inside = false →
      exec (.rangePbusPci a .read) s = .next (s.answer (.u32
        (s.pciByte (o + 3) ++ s.pciByte (o + 2) ++ s.pciByte (o + 1) ++ s.pciByte o))) ∧
      exec (.rangePbusPci a (.write v)) s =
        runOps [.cfgwr8 0 o (byteOf v 0), .cfgwr8 0 (o + 1) (byteOf v 1), .cfgwr8 0 (o + 2) (byteOf v 2),
          .cfgwr8 0 (o + 3) (byteOf v 3)] s)

/-- Rules R72 and R305: a host memory access is an MMIO operation inside the BAR0 window, an LFB operation
inside the BAR1 window where the first does not take it, for reads and writes of each width, and none of the
block's when the memory-space enable is clear or neither window holds it. That a window is compared as natural
numbers, so that one that ends at 2^32 holds its last bytes, is the model's reading (log entry 26). -/
def Obligations.HostAccessIsRoutedByTheWindows : Prop :=
  ∀ (s : State) (h base lfb : Word) (x : HostAccess) (n : Width) (inMmio inLfb : Prop),
    base = s.pciByte 0x13 ++ s.pciByte 0x12 ++ s.pciByte 0x11 ++ s.pciByte 0x10 →
    lfb = s.pciByte 0x17 ++ s.pciByte 0x16 ++ s.pciByte 0x15 ++ s.pciByte 0x14 →
    (inMmio ↔ (s.pciByte 0x04).getLsbD 1 = true ∧ base.toNat ≤ h.toNat ∧
      h.toNat < base.toNat + 2 ^ s.cfg.1.addrBits) →
    (inLfb ↔ (s.pciByte 0x04).getLsbD 1 = true ∧ lfb.toNat ≤ h.toNat ∧
      h.toNat < lfb.toNat + s.cfg.1.vramSize) →
    (inMmio → hostOperation s h (.read .b1) = some (.mrd8 (h - base)) ∧
      hostOperation s h (.read .b2) = some (.mrd16 (h - base)) ∧
      hostOperation s h (.read .b4) = some (.mrd32 (h - base)) ∧
      (∀ v, hostOperation s h (.write (.d1 v)) = some (.mwr8 (h - base) v)) ∧
      (∀ v, hostOperation s h (.write (.d2 v)) = some (.mwr16 (h - base) v)) ∧
      ∀ v, hostOperation s h (.write (.d4 v)) = some (.mwr32 (h - base) v)) ∧
    (¬ inMmio → inLfb → hostOperation s h (.read n) = some (.lfbrd n (h - lfb)) ∧
      ∀ d, hostOperation s h (.write d) = some (.lfbwr (h - lfb) d)) ∧
    (¬ inMmio → ¬ inLfb → hostOperation s h x = none)

/-- Rule R308: an LFB read returns the bytes at its offset, least significant first, and changes nothing; an
LFB write stores its bytes, each offset reduced modulo the size of VRAM, and changes nothing else. -/
def Obligations.LinearFramebufferIsVram : Prop :=
  ∀ (s : State) (off : Word) (d : Datum) (n : Nat) (v : Word), s.fatal = false →
    n = (datumWidth d).bytes → v = datumWord d →
    exec (.lfbrd .b1 off) s = .next { s with reply := .u8 (s.byteAt .vram off.toNat) } ∧
    exec (.lfbrd .b2 off) s = .next (s.answer (.u16
      (s.byteAt .vram (off.toNat + 1) ++ s.byteAt .vram off.toNat))) ∧
    exec (.lfbrd .b4 off) s = .next (s.answer (.u32
      (s.byteAt .vram (off.toNat + 3) ++ s.byteAt .vram (off.toNat + 2) ++ s.byteAt .vram (off.toNat + 1) ++
        s.byteAt .vram off.toNat))) ∧
    ∃ t, exec (.lfbwr off d) s = .next t ∧ { t with vram := s.vram } = { s with reply := .nothing } ∧
      (∀ i k, i < n → k % s.cfg.1.vramSize = (off.toNat + i) % s.cfg.1.vramSize →
        t.byteAt .vram k = byteOf v i) ∧
      ∀ k, (∀ i, i < n → k % s.cfg.1.vramSize ≠ (off.toNat + i) % s.cfg.1.vramSize) →
        t.byteAt .vram k = s.byteAt .vram k

/-! ### Reset -/

/-- Rules R50 and R350: RESET, from any state, stopped or not, gives every piece of state its reset value:
every field of the rendering state (rule R41) is 0, and `PGRAPH.opaque` the configured initial value. VRAM and
RAMIN hold a fresh draw; that the draw is a free value of the number of the RESET and the offset, and that
RESET changes that number, is the model's own (log entries 7 and 13). -/
def Obligations.ResetGivesEveryResetValue : Prop :=
  ∀ s : State, ∃ t, exec .reset s = .next t ∧
    (∀ b, t.intrOf b = 0 ∧ t.intrEnOf b = 0) ∧ t.pmcIntr = 0 ∧ t.pmcIntrEn = 0 ∧ t.irqLine = false ∧
    t.fatal = false ∧ t.rmaAddr = 0 ∧ t.rmaData = 0 ∧ t.rmaMode = 0 ∧ t.ptimerTime = 0 ∧ t.ptimerAlarm = 0 ∧
    t.vpll = 0 ∧ t.mpll = 0 ∧ t.pclk.armed = false ∧ t.mclk.armed = false ∧ t.straps = s.cfg.1.strapsReset ∧
    (∀ p e, p ∈ [PlainReg.pmcEnable, .ptimerNumerator, .ptimerDenominator] → e ∈ s.cfg.1.rtab →
      e.name = .plain p → t.plainGet p e.addr = e.reset) ∧
    (∀ k e, e ∈ s.cfg.1.rtab → e.name = .plain (.pal k) →
      t.pal[k.toNat] = e.reset.setWidth 8) ∧
    (∀ k e, e ∈ s.cfg.1.rtab → e.name = .plain (.extra k) → t.plainGet (.extra k) e.addr = e.reset) ∧
    t.notifyCtx = none ∧ t.pg.beta = 0 ∧ t.pg.rop = 0 ∧ t.pg.planeMask = 0 ∧ t.pg.clipX = 0 ∧ t.pg.clipY = 0 ∧
    t.pg.clipW = 0 ∧ t.pg.clipH = 0 ∧ t.pg.patShape = 0 ∧ t.pg.patBitmap = 0 ∧
    (∀ c ∈ [t.pg.chroma, t.pg.patColor0, t.pg.patColor1, t.pg.rectColor],
      c.a = 0 ∧ c.r = 0 ∧ c.g = 0 ∧ c.b = 0) ∧
    (∀ i : Fin 16, t.pg.rectX[i] = 0 ∧ t.pg.rectY[i] = 0) ∧ t.pg.blackBox = Config.blackBoxInit ∧
    (∀ off : Byte, t.pciByte off =
      if off = 0 then s.cfg.1.pciVendorId.extractLsb' 0 8 else if off = 1 then s.cfg.1.pciVendorId.extractLsb' 8 8
      else if off = 2 then s.cfg.1.pciDeviceId.extractLsb' 0 8
      else if off = 3 then s.cfg.1.pciDeviceId.extractLsb' 8 8 else 0) ∧
    (∀ k, t.byteAt .vram k = Config.ramByte .vram t.epoch (k % s.cfg.1.vramSize)) ∧
    (∀ k, t.byteAt .ramin k = Config.ramByte .ramin t.epoch (k % s.cfg.1.raminSize)) ∧
    t.epoch ≠ s.epoch ∧ t.diag = [] ∧ t.events = [] ∧ t.cfg = s.cfg
end

