-- ==== Sys2Proof/Laws/State.lean ====
section
/-! SUPPORT. One lemma per field per named update of the state, so that no proof unfolds an update. -/

namespace Sys2Proof.Machine

/-! ### `answer` -/

section

variable (s : State) (r : Reply)

@[simp] theorem State.answer_intr : (s.answer r).intr = s.intr := rfl
@[simp] theorem State.answer_intrEn : (s.answer r).intrEn = s.intrEn := rfl
@[simp] theorem State.answer_pmcIntr : (s.answer r).pmcIntr = s.pmcIntr := rfl
@[simp] theorem State.answer_pmcIntrEn : (s.answer r).pmcIntrEn = s.pmcIntrEn := rfl
@[simp] theorem State.answer_pmcEnable : (s.answer r).pmcEnable = s.pmcEnable := rfl
@[simp] theorem State.answer_irqLine : (s.answer r).irqLine = s.irqLine := rfl
@[simp] theorem State.answer_fatal : (s.answer r).fatal = s.fatal := rfl
@[simp] theorem State.answer_rmaAddr : (s.answer r).rmaAddr = s.rmaAddr := rfl
@[simp] theorem State.answer_rmaData : (s.answer r).rmaData = s.rmaData := rfl
@[simp] theorem State.answer_rmaMode : (s.answer r).rmaMode = s.rmaMode := rfl
@[simp] theorem State.answer_ptimerNum : (s.answer r).ptimerNum = s.ptimerNum := rfl
@[simp] theorem State.answer_ptimerDen : (s.answer r).ptimerDen = s.ptimerDen := rfl
@[simp] theorem State.answer_ptimerTime : (s.answer r).ptimerTime = s.ptimerTime := rfl
@[simp] theorem State.answer_ptimerAlarm : (s.answer r).ptimerAlarm = s.ptimerAlarm := rfl
@[simp] theorem State.answer_vpll : (s.answer r).vpll = s.vpll := rfl
@[simp] theorem State.answer_mpll : (s.answer r).mpll = s.mpll := rfl
@[simp] theorem State.answer_pclk : (s.answer r).pclk = s.pclk := rfl
@[simp] theorem State.answer_mclk : (s.answer r).mclk = s.mclk := rfl
@[simp] theorem State.answer_pal : (s.answer r).pal = s.pal := rfl
@[simp] theorem State.answer_straps : (s.answer r).straps = s.straps := rfl
@[simp] theorem State.answer_extra : (s.answer r).extra = s.extra := rfl
@[simp] theorem State.answer_pg : (s.answer r).pg = s.pg := rfl
@[simp] theorem State.answer_notifyCtx : (s.answer r).notifyCtx = s.notifyCtx := rfl
@[simp] theorem State.answer_pci : (s.answer r).pci = s.pci := rfl
@[simp] theorem State.answer_vram : (s.answer r).vram = s.vram := rfl
@[simp] theorem State.answer_ramin : (s.answer r).ramin = s.ramin := rfl
@[simp] theorem State.answer_diag : (s.answer r).diag = s.diag := rfl
@[simp] theorem State.answer_events : (s.answer r).events = s.events := rfl
@[simp] theorem State.answer_cfg : (s.answer r).cfg = s.cfg := rfl
@[simp] theorem State.answer_epoch : (s.answer r).epoch = s.epoch := rfl
@[simp] theorem State.answer_draws : (s.answer r).draws = s.draws := rfl
@[simp] theorem State.answer_seq : (s.answer r).seq = s.seq := rfl
@[simp] theorem State.answer_stream : (s.answer r).stream = s.stream := rfl
@[simp] theorem State.answer_reply : (s.answer r).reply = r := rfl

end

/-! ### `addDiag` -/

section

variable (s : State) (k : DiagKind) (a v : Word) (n : DiagName)

@[simp] theorem State.addDiag_intr : (s.addDiag k a v n).intr = s.intr := rfl
@[simp] theorem State.addDiag_intrEn : (s.addDiag k a v n).intrEn = s.intrEn := rfl
@[simp] theorem State.addDiag_pmcIntr : (s.addDiag k a v n).pmcIntr = s.pmcIntr := rfl
@[simp] theorem State.addDiag_pmcIntrEn : (s.addDiag k a v n).pmcIntrEn = s.pmcIntrEn := rfl
@[simp] theorem State.addDiag_pmcEnable : (s.addDiag k a v n).pmcEnable = s.pmcEnable := rfl
@[simp] theorem State.addDiag_irqLine : (s.addDiag k a v n).irqLine = s.irqLine := rfl
@[simp] theorem State.addDiag_fatal : (s.addDiag k a v n).fatal = s.fatal := rfl
@[simp] theorem State.addDiag_rmaAddr : (s.addDiag k a v n).rmaAddr = s.rmaAddr := rfl
@[simp] theorem State.addDiag_rmaData : (s.addDiag k a v n).rmaData = s.rmaData := rfl
@[simp] theorem State.addDiag_rmaMode : (s.addDiag k a v n).rmaMode = s.rmaMode := rfl
@[simp] theorem State.addDiag_ptimerNum : (s.addDiag k a v n).ptimerNum = s.ptimerNum := rfl
@[simp] theorem State.addDiag_ptimerDen : (s.addDiag k a v n).ptimerDen = s.ptimerDen := rfl
@[simp] theorem State.addDiag_ptimerTime : (s.addDiag k a v n).ptimerTime = s.ptimerTime := rfl
@[simp] theorem State.addDiag_ptimerAlarm : (s.addDiag k a v n).ptimerAlarm = s.ptimerAlarm := rfl
@[simp] theorem State.addDiag_vpll : (s.addDiag k a v n).vpll = s.vpll := rfl
@[simp] theorem State.addDiag_mpll : (s.addDiag k a v n).mpll = s.mpll := rfl
@[simp] theorem State.addDiag_pclk : (s.addDiag k a v n).pclk = s.pclk := rfl
@[simp] theorem State.addDiag_mclk : (s.addDiag k a v n).mclk = s.mclk := rfl
@[simp] theorem State.addDiag_pal : (s.addDiag k a v n).pal = s.pal := rfl
@[simp] theorem State.addDiag_straps : (s.addDiag k a v n).straps = s.straps := rfl
@[simp] theorem State.addDiag_extra : (s.addDiag k a v n).extra = s.extra := rfl
@[simp] theorem State.addDiag_pg : (s.addDiag k a v n).pg = s.pg := rfl
@[simp] theorem State.addDiag_notifyCtx : (s.addDiag k a v n).notifyCtx = s.notifyCtx := rfl
@[simp] theorem State.addDiag_pci : (s.addDiag k a v n).pci = s.pci := rfl
@[simp] theorem State.addDiag_vram : (s.addDiag k a v n).vram = s.vram := rfl
@[simp] theorem State.addDiag_ramin : (s.addDiag k a v n).ramin = s.ramin := rfl
@[simp] theorem State.addDiag_diag : (s.addDiag k a v n).diag = s.diag ++ [{ kind := k, addr := a, value := v, name := n }] := rfl
@[simp] theorem State.addDiag_events : (s.addDiag k a v n).events = s.events := rfl
@[simp] theorem State.addDiag_cfg : (s.addDiag k a v n).cfg = s.cfg := rfl
@[simp] theorem State.addDiag_epoch : (s.addDiag k a v n).epoch = s.epoch := rfl
@[simp] theorem State.addDiag_draws : (s.addDiag k a v n).draws = s.draws := rfl
@[simp] theorem State.addDiag_seq : (s.addDiag k a v n).seq = s.seq := rfl
@[simp] theorem State.addDiag_stream : (s.addDiag k a v n).stream = s.stream := rfl
@[simp] theorem State.addDiag_reply : (s.addDiag k a v n).reply = s.reply := rfl

end

/-! ### `addEvent` -/

section

variable (s : State) (e : Event)

@[simp] theorem State.addEvent_intr : (s.addEvent e).intr = s.intr := rfl
@[simp] theorem State.addEvent_intrEn : (s.addEvent e).intrEn = s.intrEn := rfl
@[simp] theorem State.addEvent_pmcIntr : (s.addEvent e).pmcIntr = s.pmcIntr := rfl
@[simp] theorem State.addEvent_pmcIntrEn : (s.addEvent e).pmcIntrEn = s.pmcIntrEn := rfl
@[simp] theorem State.addEvent_pmcEnable : (s.addEvent e).pmcEnable = s.pmcEnable := rfl
@[simp] theorem State.addEvent_irqLine : (s.addEvent e).irqLine = s.irqLine := rfl
@[simp] theorem State.addEvent_fatal : (s.addEvent e).fatal = s.fatal := rfl
@[simp] theorem State.addEvent_rmaAddr : (s.addEvent e).rmaAddr = s.rmaAddr := rfl
@[simp] theorem State.addEvent_rmaData : (s.addEvent e).rmaData = s.rmaData := rfl
@[simp] theorem State.addEvent_rmaMode : (s.addEvent e).rmaMode = s.rmaMode := rfl
@[simp] theorem State.addEvent_ptimerNum : (s.addEvent e).ptimerNum = s.ptimerNum := rfl
@[simp] theorem State.addEvent_ptimerDen : (s.addEvent e).ptimerDen = s.ptimerDen := rfl
@[simp] theorem State.addEvent_ptimerTime : (s.addEvent e).ptimerTime = s.ptimerTime := rfl
@[simp] theorem State.addEvent_ptimerAlarm : (s.addEvent e).ptimerAlarm = s.ptimerAlarm := rfl
@[simp] theorem State.addEvent_vpll : (s.addEvent e).vpll = s.vpll := rfl
@[simp] theorem State.addEvent_mpll : (s.addEvent e).mpll = s.mpll := rfl
@[simp] theorem State.addEvent_pclk : (s.addEvent e).pclk = s.pclk := rfl
@[simp] theorem State.addEvent_mclk : (s.addEvent e).mclk = s.mclk := rfl
@[simp] theorem State.addEvent_pal : (s.addEvent e).pal = s.pal := rfl
@[simp] theorem State.addEvent_straps : (s.addEvent e).straps = s.straps := rfl
@[simp] theorem State.addEvent_extra : (s.addEvent e).extra = s.extra := rfl
@[simp] theorem State.addEvent_pg : (s.addEvent e).pg = s.pg := rfl
@[simp] theorem State.addEvent_notifyCtx : (s.addEvent e).notifyCtx = s.notifyCtx := rfl
@[simp] theorem State.addEvent_pci : (s.addEvent e).pci = s.pci := rfl
@[simp] theorem State.addEvent_vram : (s.addEvent e).vram = s.vram := rfl
@[simp] theorem State.addEvent_ramin : (s.addEvent e).ramin = s.ramin := rfl
@[simp] theorem State.addEvent_diag : (s.addEvent e).diag = s.diag := rfl
@[simp] theorem State.addEvent_events : (s.addEvent e).events = s.events ++ [e] := rfl
@[simp] theorem State.addEvent_cfg : (s.addEvent e).cfg = s.cfg := rfl
@[simp] theorem State.addEvent_epoch : (s.addEvent e).epoch = s.epoch := rfl
@[simp] theorem State.addEvent_draws : (s.addEvent e).draws = s.draws := rfl
@[simp] theorem State.addEvent_seq : (s.addEvent e).seq = s.seq := rfl
@[simp] theorem State.addEvent_stream : (s.addEvent e).stream = s.stream := rfl
@[simp] theorem State.addEvent_reply : (s.addEvent e).reply = s.reply := rfl

end

/-! ### `drawn` -/

section

variable (s : State)

@[simp] theorem State.drawn_intr : (s.drawn).intr = s.intr := rfl
@[simp] theorem State.drawn_intrEn : (s.drawn).intrEn = s.intrEn := rfl
@[simp] theorem State.drawn_pmcIntr : (s.drawn).pmcIntr = s.pmcIntr := rfl
@[simp] theorem State.drawn_pmcIntrEn : (s.drawn).pmcIntrEn = s.pmcIntrEn := rfl
@[simp] theorem State.drawn_pmcEnable : (s.drawn).pmcEnable = s.pmcEnable := rfl
@[simp] theorem State.drawn_irqLine : (s.drawn).irqLine = s.irqLine := rfl
@[simp] theorem State.drawn_fatal : (s.drawn).fatal = s.fatal := rfl
@[simp] theorem State.drawn_rmaAddr : (s.drawn).rmaAddr = s.rmaAddr := rfl
@[simp] theorem State.drawn_rmaData : (s.drawn).rmaData = s.rmaData := rfl
@[simp] theorem State.drawn_rmaMode : (s.drawn).rmaMode = s.rmaMode := rfl
@[simp] theorem State.drawn_ptimerNum : (s.drawn).ptimerNum = s.ptimerNum := rfl
@[simp] theorem State.drawn_ptimerDen : (s.drawn).ptimerDen = s.ptimerDen := rfl
@[simp] theorem State.drawn_ptimerTime : (s.drawn).ptimerTime = s.ptimerTime := rfl
@[simp] theorem State.drawn_ptimerAlarm : (s.drawn).ptimerAlarm = s.ptimerAlarm := rfl
@[simp] theorem State.drawn_vpll : (s.drawn).vpll = s.vpll := rfl
@[simp] theorem State.drawn_mpll : (s.drawn).mpll = s.mpll := rfl
@[simp] theorem State.drawn_pclk : (s.drawn).pclk = s.pclk := rfl
@[simp] theorem State.drawn_mclk : (s.drawn).mclk = s.mclk := rfl
@[simp] theorem State.drawn_pal : (s.drawn).pal = s.pal := rfl
@[simp] theorem State.drawn_straps : (s.drawn).straps = s.straps := rfl
@[simp] theorem State.drawn_extra : (s.drawn).extra = s.extra := rfl
@[simp] theorem State.drawn_pg : (s.drawn).pg = s.pg := rfl
@[simp] theorem State.drawn_notifyCtx : (s.drawn).notifyCtx = s.notifyCtx := rfl
@[simp] theorem State.drawn_pci : (s.drawn).pci = s.pci := rfl
@[simp] theorem State.drawn_vram : (s.drawn).vram = s.vram := rfl
@[simp] theorem State.drawn_ramin : (s.drawn).ramin = s.ramin := rfl
@[simp] theorem State.drawn_diag : (s.drawn).diag = s.diag := rfl
@[simp] theorem State.drawn_events : (s.drawn).events = s.events := rfl
@[simp] theorem State.drawn_cfg : (s.drawn).cfg = s.cfg := rfl
@[simp] theorem State.drawn_epoch : (s.drawn).epoch = s.epoch := rfl
@[simp] theorem State.drawn_draws : (s.drawn).draws = s.draws + 1 := rfl
@[simp] theorem State.drawn_seq : (s.drawn).seq = s.seq := rfl
@[simp] theorem State.drawn_stream : (s.drawn).stream = s.stream := rfl
@[simp] theorem State.drawn_reply : (s.drawn).reply = s.reply := rfl

end

/-! ### `setLine` -/

section

variable (s : State) (level : Bool)

@[simp] theorem State.setLine_intr : (s.setLine level).intr = s.intr := rfl
@[simp] theorem State.setLine_intrEn : (s.setLine level).intrEn = s.intrEn := rfl
@[simp] theorem State.setLine_pmcIntr : (s.setLine level).pmcIntr = s.pmcIntr := rfl
@[simp] theorem State.setLine_pmcIntrEn : (s.setLine level).pmcIntrEn = s.pmcIntrEn := rfl
@[simp] theorem State.setLine_pmcEnable : (s.setLine level).pmcEnable = s.pmcEnable := rfl
@[simp] theorem State.setLine_irqLine : (s.setLine level).irqLine = level := rfl
@[simp] theorem State.setLine_fatal : (s.setLine level).fatal = s.fatal := rfl
@[simp] theorem State.setLine_rmaAddr : (s.setLine level).rmaAddr = s.rmaAddr := rfl
@[simp] theorem State.setLine_rmaData : (s.setLine level).rmaData = s.rmaData := rfl
@[simp] theorem State.setLine_rmaMode : (s.setLine level).rmaMode = s.rmaMode := rfl
@[simp] theorem State.setLine_ptimerNum : (s.setLine level).ptimerNum = s.ptimerNum := rfl
@[simp] theorem State.setLine_ptimerDen : (s.setLine level).ptimerDen = s.ptimerDen := rfl
@[simp] theorem State.setLine_ptimerTime : (s.setLine level).ptimerTime = s.ptimerTime := rfl
@[simp] theorem State.setLine_ptimerAlarm : (s.setLine level).ptimerAlarm = s.ptimerAlarm := rfl
@[simp] theorem State.setLine_vpll : (s.setLine level).vpll = s.vpll := rfl
@[simp] theorem State.setLine_mpll : (s.setLine level).mpll = s.mpll := rfl
@[simp] theorem State.setLine_pclk : (s.setLine level).pclk = s.pclk := rfl
@[simp] theorem State.setLine_mclk : (s.setLine level).mclk = s.mclk := rfl
@[simp] theorem State.setLine_pal : (s.setLine level).pal = s.pal := rfl
@[simp] theorem State.setLine_straps : (s.setLine level).straps = s.straps := rfl
@[simp] theorem State.setLine_extra : (s.setLine level).extra = s.extra := rfl
@[simp] theorem State.setLine_pg : (s.setLine level).pg = s.pg := rfl
@[simp] theorem State.setLine_notifyCtx : (s.setLine level).notifyCtx = s.notifyCtx := rfl
@[simp] theorem State.setLine_pci : (s.setLine level).pci = s.pci := rfl
@[simp] theorem State.setLine_vram : (s.setLine level).vram = s.vram := rfl
@[simp] theorem State.setLine_ramin : (s.setLine level).ramin = s.ramin := rfl
@[simp] theorem State.setLine_diag : (s.setLine level).diag = s.diag := rfl
@[simp] theorem State.setLine_events : (s.setLine level).events = s.events := rfl
@[simp] theorem State.setLine_cfg : (s.setLine level).cfg = s.cfg := rfl
@[simp] theorem State.setLine_epoch : (s.setLine level).epoch = s.epoch := rfl
@[simp] theorem State.setLine_draws : (s.setLine level).draws = s.draws := rfl
@[simp] theorem State.setLine_seq : (s.setLine level).seq = s.seq := rfl
@[simp] theorem State.setLine_stream : (s.setLine level).stream = s.stream := rfl
@[simp] theorem State.setLine_reply : (s.setLine level).reply = s.reply := rfl

end

/-! ### `raiseFatal` -/

section

variable (s : State)

@[simp] theorem State.raiseFatal_intr : (s.raiseFatal).intr = s.intr := rfl
@[simp] theorem State.raiseFatal_intrEn : (s.raiseFatal).intrEn = s.intrEn := rfl
@[simp] theorem State.raiseFatal_pmcIntr : (s.raiseFatal).pmcIntr = s.pmcIntr := rfl
@[simp] theorem State.raiseFatal_pmcIntrEn : (s.raiseFatal).pmcIntrEn = s.pmcIntrEn := rfl
@[simp] theorem State.raiseFatal_pmcEnable : (s.raiseFatal).pmcEnable = s.pmcEnable := rfl
@[simp] theorem State.raiseFatal_irqLine : (s.raiseFatal).irqLine = s.irqLine := rfl
@[simp] theorem State.raiseFatal_fatal : (s.raiseFatal).fatal = true := rfl
@[simp] theorem State.raiseFatal_rmaAddr : (s.raiseFatal).rmaAddr = s.rmaAddr := rfl
@[simp] theorem State.raiseFatal_rmaData : (s.raiseFatal).rmaData = s.rmaData := rfl
@[simp] theorem State.raiseFatal_rmaMode : (s.raiseFatal).rmaMode = s.rmaMode := rfl
@[simp] theorem State.raiseFatal_ptimerNum : (s.raiseFatal).ptimerNum = s.ptimerNum := rfl
@[simp] theorem State.raiseFatal_ptimerDen : (s.raiseFatal).ptimerDen = s.ptimerDen := rfl
@[simp] theorem State.raiseFatal_ptimerTime : (s.raiseFatal).ptimerTime = s.ptimerTime := rfl
@[simp] theorem State.raiseFatal_ptimerAlarm : (s.raiseFatal).ptimerAlarm = s.ptimerAlarm := rfl
@[simp] theorem State.raiseFatal_vpll : (s.raiseFatal).vpll = s.vpll := rfl
@[simp] theorem State.raiseFatal_mpll : (s.raiseFatal).mpll = s.mpll := rfl
@[simp] theorem State.raiseFatal_pclk : (s.raiseFatal).pclk = s.pclk := rfl
@[simp] theorem State.raiseFatal_mclk : (s.raiseFatal).mclk = s.mclk := rfl
@[simp] theorem State.raiseFatal_pal : (s.raiseFatal).pal = s.pal := rfl
@[simp] theorem State.raiseFatal_straps : (s.raiseFatal).straps = s.straps := rfl
@[simp] theorem State.raiseFatal_extra : (s.raiseFatal).extra = s.extra := rfl
@[simp] theorem State.raiseFatal_pg : (s.raiseFatal).pg = s.pg := rfl
@[simp] theorem State.raiseFatal_notifyCtx : (s.raiseFatal).notifyCtx = s.notifyCtx := rfl
@[simp] theorem State.raiseFatal_pci : (s.raiseFatal).pci = s.pci := rfl
@[simp] theorem State.raiseFatal_vram : (s.raiseFatal).vram = s.vram := rfl
@[simp] theorem State.raiseFatal_ramin : (s.raiseFatal).ramin = s.ramin := rfl
@[simp] theorem State.raiseFatal_diag : (s.raiseFatal).diag = s.diag := rfl
@[simp] theorem State.raiseFatal_events : (s.raiseFatal).events = s.events := rfl
@[simp] theorem State.raiseFatal_cfg : (s.raiseFatal).cfg = s.cfg := rfl
@[simp] theorem State.raiseFatal_epoch : (s.raiseFatal).epoch = s.epoch := rfl
@[simp] theorem State.raiseFatal_draws : (s.raiseFatal).draws = s.draws := rfl
@[simp] theorem State.raiseFatal_seq : (s.raiseFatal).seq = s.seq := rfl
@[simp] theorem State.raiseFatal_stream : (s.raiseFatal).stream = s.stream := rfl
@[simp] theorem State.raiseFatal_reply : (s.raiseFatal).reply = s.reply := rfl

end

/-! ### `setIntr` -/

section

variable (s : State) (b : IntrBank) (v : Word)

@[simp] theorem State.setIntr_intr : (s.setIntr b v).intr = s.intr.set (bankIdx b) v := rfl
@[simp] theorem State.setIntr_intrEn : (s.setIntr b v).intrEn = s.intrEn := rfl
@[simp] theorem State.setIntr_pmcIntr : (s.setIntr b v).pmcIntr = s.pmcIntr := rfl
@[simp] theorem State.setIntr_pmcIntrEn : (s.setIntr b v).pmcIntrEn = s.pmcIntrEn := rfl
@[simp] theorem State.setIntr_pmcEnable : (s.setIntr b v).pmcEnable = s.pmcEnable := rfl
@[simp] theorem State.setIntr_irqLine : (s.setIntr b v).irqLine = s.irqLine := rfl
@[simp] theorem State.setIntr_fatal : (s.setIntr b v).fatal = s.fatal := rfl
@[simp] theorem State.setIntr_rmaAddr : (s.setIntr b v).rmaAddr = s.rmaAddr := rfl
@[simp] theorem State.setIntr_rmaData : (s.setIntr b v).rmaData = s.rmaData := rfl
@[simp] theorem State.setIntr_rmaMode : (s.setIntr b v).rmaMode = s.rmaMode := rfl
@[simp] theorem State.setIntr_ptimerNum : (s.setIntr b v).ptimerNum = s.ptimerNum := rfl
@[simp] theorem State.setIntr_ptimerDen : (s.setIntr b v).ptimerDen = s.ptimerDen := rfl
@[simp] theorem State.setIntr_ptimerTime : (s.setIntr b v).ptimerTime = s.ptimerTime := rfl
@[simp] theorem State.setIntr_ptimerAlarm : (s.setIntr b v).ptimerAlarm = s.ptimerAlarm := rfl
@[simp] theorem State.setIntr_vpll : (s.setIntr b v).vpll = s.vpll := rfl
@[simp] theorem State.setIntr_mpll : (s.setIntr b v).mpll = s.mpll := rfl
@[simp] theorem State.setIntr_pclk : (s.setIntr b v).pclk = s.pclk := rfl
@[simp] theorem State.setIntr_mclk : (s.setIntr b v).mclk = s.mclk := rfl
@[simp] theorem State.setIntr_pal : (s.setIntr b v).pal = s.pal := rfl
@[simp] theorem State.setIntr_straps : (s.setIntr b v).straps = s.straps := rfl
@[simp] theorem State.setIntr_extra : (s.setIntr b v).extra = s.extra := rfl
@[simp] theorem State.setIntr_pg : (s.setIntr b v).pg = s.pg := rfl
@[simp] theorem State.setIntr_notifyCtx : (s.setIntr b v).notifyCtx = s.notifyCtx := rfl
@[simp] theorem State.setIntr_pci : (s.setIntr b v).pci = s.pci := rfl
@[simp] theorem State.setIntr_vram : (s.setIntr b v).vram = s.vram := rfl
@[simp] theorem State.setIntr_ramin : (s.setIntr b v).ramin = s.ramin := rfl
@[simp] theorem State.setIntr_diag : (s.setIntr b v).diag = s.diag := rfl
@[simp] theorem State.setIntr_events : (s.setIntr b v).events = s.events := rfl
@[simp] theorem State.setIntr_cfg : (s.setIntr b v).cfg = s.cfg := rfl
@[simp] theorem State.setIntr_epoch : (s.setIntr b v).epoch = s.epoch := rfl
@[simp] theorem State.setIntr_draws : (s.setIntr b v).draws = s.draws := rfl
@[simp] theorem State.setIntr_seq : (s.setIntr b v).seq = s.seq := rfl
@[simp] theorem State.setIntr_stream : (s.setIntr b v).stream = s.stream := rfl
@[simp] theorem State.setIntr_reply : (s.setIntr b v).reply = s.reply := rfl

end

/-! ### `setIntrEn` -/

section

variable (s : State) (b : IntrBank) (v : Word)

@[simp] theorem State.setIntrEn_intr : (s.setIntrEn b v).intr = s.intr := rfl
@[simp] theorem State.setIntrEn_intrEn : (s.setIntrEn b v).intrEn = s.intrEn.set (bankIdx b) v := rfl
@[simp] theorem State.setIntrEn_pmcIntr : (s.setIntrEn b v).pmcIntr = s.pmcIntr := rfl
@[simp] theorem State.setIntrEn_pmcIntrEn : (s.setIntrEn b v).pmcIntrEn = s.pmcIntrEn := rfl
@[simp] theorem State.setIntrEn_pmcEnable : (s.setIntrEn b v).pmcEnable = s.pmcEnable := rfl
@[simp] theorem State.setIntrEn_irqLine : (s.setIntrEn b v).irqLine = s.irqLine := rfl
@[simp] theorem State.setIntrEn_fatal : (s.setIntrEn b v).fatal = s.fatal := rfl
@[simp] theorem State.setIntrEn_rmaAddr : (s.setIntrEn b v).rmaAddr = s.rmaAddr := rfl
@[simp] theorem State.setIntrEn_rmaData : (s.setIntrEn b v).rmaData = s.rmaData := rfl
@[simp] theorem State.setIntrEn_rmaMode : (s.setIntrEn b v).rmaMode = s.rmaMode := rfl
@[simp] theorem State.setIntrEn_ptimerNum : (s.setIntrEn b v).ptimerNum = s.ptimerNum := rfl
@[simp] theorem State.setIntrEn_ptimerDen : (s.setIntrEn b v).ptimerDen = s.ptimerDen := rfl
@[simp] theorem State.setIntrEn_ptimerTime : (s.setIntrEn b v).ptimerTime = s.ptimerTime := rfl
@[simp] theorem State.setIntrEn_ptimerAlarm : (s.setIntrEn b v).ptimerAlarm = s.ptimerAlarm := rfl
@[simp] theorem State.setIntrEn_vpll : (s.setIntrEn b v).vpll = s.vpll := rfl
@[simp] theorem State.setIntrEn_mpll : (s.setIntrEn b v).mpll = s.mpll := rfl
@[simp] theorem State.setIntrEn_pclk : (s.setIntrEn b v).pclk = s.pclk := rfl
@[simp] theorem State.setIntrEn_mclk : (s.setIntrEn b v).mclk = s.mclk := rfl
@[simp] theorem State.setIntrEn_pal : (s.setIntrEn b v).pal = s.pal := rfl
@[simp] theorem State.setIntrEn_straps : (s.setIntrEn b v).straps = s.straps := rfl
@[simp] theorem State.setIntrEn_extra : (s.setIntrEn b v).extra = s.extra := rfl
@[simp] theorem State.setIntrEn_pg : (s.setIntrEn b v).pg = s.pg := rfl
@[simp] theorem State.setIntrEn_notifyCtx : (s.setIntrEn b v).notifyCtx = s.notifyCtx := rfl
@[simp] theorem State.setIntrEn_pci : (s.setIntrEn b v).pci = s.pci := rfl
@[simp] theorem State.setIntrEn_vram : (s.setIntrEn b v).vram = s.vram := rfl
@[simp] theorem State.setIntrEn_ramin : (s.setIntrEn b v).ramin = s.ramin := rfl
@[simp] theorem State.setIntrEn_diag : (s.setIntrEn b v).diag = s.diag := rfl
@[simp] theorem State.setIntrEn_events : (s.setIntrEn b v).events = s.events := rfl
@[simp] theorem State.setIntrEn_cfg : (s.setIntrEn b v).cfg = s.cfg := rfl
@[simp] theorem State.setIntrEn_epoch : (s.setIntrEn b v).epoch = s.epoch := rfl
@[simp] theorem State.setIntrEn_draws : (s.setIntrEn b v).draws = s.draws := rfl
@[simp] theorem State.setIntrEn_seq : (s.setIntrEn b v).seq = s.seq := rfl
@[simp] theorem State.setIntrEn_stream : (s.setIntrEn b v).stream = s.stream := rfl
@[simp] theorem State.setIntrEn_reply : (s.setIntrEn b v).reply = s.reply := rfl

end

/-! ### `setPci` -/

section

variable (s : State) (off v : Byte)

@[simp] theorem State.setPci_intr : (s.setPci off v).intr = s.intr := rfl
@[simp] theorem State.setPci_intrEn : (s.setPci off v).intrEn = s.intrEn := rfl
@[simp] theorem State.setPci_pmcIntr : (s.setPci off v).pmcIntr = s.pmcIntr := rfl
@[simp] theorem State.setPci_pmcIntrEn : (s.setPci off v).pmcIntrEn = s.pmcIntrEn := rfl
@[simp] theorem State.setPci_pmcEnable : (s.setPci off v).pmcEnable = s.pmcEnable := rfl
@[simp] theorem State.setPci_irqLine : (s.setPci off v).irqLine = s.irqLine := rfl
@[simp] theorem State.setPci_fatal : (s.setPci off v).fatal = s.fatal := rfl
@[simp] theorem State.setPci_rmaAddr : (s.setPci off v).rmaAddr = s.rmaAddr := rfl
@[simp] theorem State.setPci_rmaData : (s.setPci off v).rmaData = s.rmaData := rfl
@[simp] theorem State.setPci_rmaMode : (s.setPci off v).rmaMode = s.rmaMode := rfl
@[simp] theorem State.setPci_ptimerNum : (s.setPci off v).ptimerNum = s.ptimerNum := rfl
@[simp] theorem State.setPci_ptimerDen : (s.setPci off v).ptimerDen = s.ptimerDen := rfl
@[simp] theorem State.setPci_ptimerTime : (s.setPci off v).ptimerTime = s.ptimerTime := rfl
@[simp] theorem State.setPci_ptimerAlarm : (s.setPci off v).ptimerAlarm = s.ptimerAlarm := rfl
@[simp] theorem State.setPci_vpll : (s.setPci off v).vpll = s.vpll := rfl
@[simp] theorem State.setPci_mpll : (s.setPci off v).mpll = s.mpll := rfl
@[simp] theorem State.setPci_pclk : (s.setPci off v).pclk = s.pclk := rfl
@[simp] theorem State.setPci_mclk : (s.setPci off v).mclk = s.mclk := rfl
@[simp] theorem State.setPci_pal : (s.setPci off v).pal = s.pal := rfl
@[simp] theorem State.setPci_straps : (s.setPci off v).straps = s.straps := rfl
@[simp] theorem State.setPci_extra : (s.setPci off v).extra = s.extra := rfl
@[simp] theorem State.setPci_pg : (s.setPci off v).pg = s.pg := rfl
@[simp] theorem State.setPci_notifyCtx : (s.setPci off v).notifyCtx = s.notifyCtx := rfl
@[simp] theorem State.setPci_pci : (s.setPci off v).pci = s.pci.set off.toNat v off.isLt := rfl
@[simp] theorem State.setPci_vram : (s.setPci off v).vram = s.vram := rfl
@[simp] theorem State.setPci_ramin : (s.setPci off v).ramin = s.ramin := rfl
@[simp] theorem State.setPci_diag : (s.setPci off v).diag = s.diag := rfl
@[simp] theorem State.setPci_events : (s.setPci off v).events = s.events := rfl
@[simp] theorem State.setPci_cfg : (s.setPci off v).cfg = s.cfg := rfl
@[simp] theorem State.setPci_epoch : (s.setPci off v).epoch = s.epoch := rfl
@[simp] theorem State.setPci_draws : (s.setPci off v).draws = s.draws := rfl
@[simp] theorem State.setPci_seq : (s.setPci off v).seq = s.seq := rfl
@[simp] theorem State.setPci_stream : (s.setPci off v).stream = s.stream := rfl
@[simp] theorem State.setPci_reply : (s.setPci off v).reply = s.reply := rfl

end

/-! ### `taken` -/

section

variable (s : State)

@[simp] theorem State.taken_intr : (s.taken).intr = s.intr := rfl
@[simp] theorem State.taken_intrEn : (s.taken).intrEn = s.intrEn := rfl
@[simp] theorem State.taken_pmcIntr : (s.taken).pmcIntr = s.pmcIntr := rfl
@[simp] theorem State.taken_pmcIntrEn : (s.taken).pmcIntrEn = s.pmcIntrEn := rfl
@[simp] theorem State.taken_pmcEnable : (s.taken).pmcEnable = s.pmcEnable := rfl
@[simp] theorem State.taken_irqLine : (s.taken).irqLine = s.irqLine := rfl
@[simp] theorem State.taken_fatal : (s.taken).fatal = s.fatal := rfl
@[simp] theorem State.taken_rmaAddr : (s.taken).rmaAddr = s.rmaAddr := rfl
@[simp] theorem State.taken_rmaData : (s.taken).rmaData = s.rmaData := rfl
@[simp] theorem State.taken_rmaMode : (s.taken).rmaMode = s.rmaMode := rfl
@[simp] theorem State.taken_ptimerNum : (s.taken).ptimerNum = s.ptimerNum := rfl
@[simp] theorem State.taken_ptimerDen : (s.taken).ptimerDen = s.ptimerDen := rfl
@[simp] theorem State.taken_ptimerTime : (s.taken).ptimerTime = s.ptimerTime := rfl
@[simp] theorem State.taken_ptimerAlarm : (s.taken).ptimerAlarm = s.ptimerAlarm := rfl
@[simp] theorem State.taken_vpll : (s.taken).vpll = s.vpll := rfl
@[simp] theorem State.taken_mpll : (s.taken).mpll = s.mpll := rfl
@[simp] theorem State.taken_pclk : (s.taken).pclk = s.pclk := rfl
@[simp] theorem State.taken_mclk : (s.taken).mclk = s.mclk := rfl
@[simp] theorem State.taken_pal : (s.taken).pal = s.pal := rfl
@[simp] theorem State.taken_straps : (s.taken).straps = s.straps := rfl
@[simp] theorem State.taken_extra : (s.taken).extra = s.extra := rfl
@[simp] theorem State.taken_pg : (s.taken).pg = s.pg := rfl
@[simp] theorem State.taken_notifyCtx : (s.taken).notifyCtx = s.notifyCtx := rfl
@[simp] theorem State.taken_pci : (s.taken).pci = s.pci := rfl
@[simp] theorem State.taken_vram : (s.taken).vram = s.vram := rfl
@[simp] theorem State.taken_ramin : (s.taken).ramin = s.ramin := rfl
@[simp] theorem State.taken_diag : (s.taken).diag = s.diag := rfl
@[simp] theorem State.taken_events : (s.taken).events = s.events := rfl
@[simp] theorem State.taken_cfg : (s.taken).cfg = s.cfg := rfl
@[simp] theorem State.taken_epoch : (s.taken).epoch = s.epoch := rfl
@[simp] theorem State.taken_draws : (s.taken).draws = s.draws := rfl
@[simp] theorem State.taken_seq : (s.taken).seq = s.seq + 1 := rfl
@[simp] theorem State.taken_stream : (s.taken).stream = s.stream.tail := rfl
@[simp] theorem State.taken_reply : (s.taken).reply = s.reply := rfl

end

/-! ### `passedOver` -/

section

variable (s : State)

@[simp] theorem State.passedOver_intr : (s.passedOver).intr = s.intr := rfl
@[simp] theorem State.passedOver_intrEn : (s.passedOver).intrEn = s.intrEn := rfl
@[simp] theorem State.passedOver_pmcIntr : (s.passedOver).pmcIntr = s.pmcIntr := rfl
@[simp] theorem State.passedOver_pmcIntrEn : (s.passedOver).pmcIntrEn = s.pmcIntrEn := rfl
@[simp] theorem State.passedOver_pmcEnable : (s.passedOver).pmcEnable = s.pmcEnable := rfl
@[simp] theorem State.passedOver_irqLine : (s.passedOver).irqLine = s.irqLine := rfl
@[simp] theorem State.passedOver_fatal : (s.passedOver).fatal = s.fatal := rfl
@[simp] theorem State.passedOver_rmaAddr : (s.passedOver).rmaAddr = s.rmaAddr := rfl
@[simp] theorem State.passedOver_rmaData : (s.passedOver).rmaData = s.rmaData := rfl
@[simp] theorem State.passedOver_rmaMode : (s.passedOver).rmaMode = s.rmaMode := rfl
@[simp] theorem State.passedOver_ptimerNum : (s.passedOver).ptimerNum = s.ptimerNum := rfl
@[simp] theorem State.passedOver_ptimerDen : (s.passedOver).ptimerDen = s.ptimerDen := rfl
@[simp] theorem State.passedOver_ptimerTime : (s.passedOver).ptimerTime = s.ptimerTime := rfl
@[simp] theorem State.passedOver_ptimerAlarm : (s.passedOver).ptimerAlarm = s.ptimerAlarm := rfl
@[simp] theorem State.passedOver_vpll : (s.passedOver).vpll = s.vpll := rfl
@[simp] theorem State.passedOver_mpll : (s.passedOver).mpll = s.mpll := rfl
@[simp] theorem State.passedOver_pclk : (s.passedOver).pclk = s.pclk := rfl
@[simp] theorem State.passedOver_mclk : (s.passedOver).mclk = s.mclk := rfl
@[simp] theorem State.passedOver_pal : (s.passedOver).pal = s.pal := rfl
@[simp] theorem State.passedOver_straps : (s.passedOver).straps = s.straps := rfl
@[simp] theorem State.passedOver_extra : (s.passedOver).extra = s.extra := rfl
@[simp] theorem State.passedOver_pg : (s.passedOver).pg = s.pg := rfl
@[simp] theorem State.passedOver_notifyCtx : (s.passedOver).notifyCtx = s.notifyCtx := rfl
@[simp] theorem State.passedOver_pci : (s.passedOver).pci = s.pci := rfl
@[simp] theorem State.passedOver_vram : (s.passedOver).vram = s.vram := rfl
@[simp] theorem State.passedOver_ramin : (s.passedOver).ramin = s.ramin := rfl
@[simp] theorem State.passedOver_diag : (s.passedOver).diag = s.diag := rfl
@[simp] theorem State.passedOver_events : (s.passedOver).events = s.events := rfl
@[simp] theorem State.passedOver_cfg : (s.passedOver).cfg = s.cfg := rfl
@[simp] theorem State.passedOver_epoch : (s.passedOver).epoch = s.epoch := rfl
@[simp] theorem State.passedOver_draws : (s.passedOver).draws = s.draws := rfl
@[simp] theorem State.passedOver_seq : (s.passedOver).seq = s.seq := rfl
@[simp] theorem State.passedOver_stream : (s.passedOver).stream = s.stream.tail := rfl
@[simp] theorem State.passedOver_reply : (s.passedOver).reply = s.reply := rfl

end

/-! ### `present` -/

section

variable (s : State) (f : OpFrame)

@[simp] theorem State.present_intr : (s.present f).intr = s.intr := rfl
@[simp] theorem State.present_intrEn : (s.present f).intrEn = s.intrEn := rfl
@[simp] theorem State.present_pmcIntr : (s.present f).pmcIntr = s.pmcIntr := rfl
@[simp] theorem State.present_pmcIntrEn : (s.present f).pmcIntrEn = s.pmcIntrEn := rfl
@[simp] theorem State.present_pmcEnable : (s.present f).pmcEnable = s.pmcEnable := rfl
@[simp] theorem State.present_irqLine : (s.present f).irqLine = s.irqLine := rfl
@[simp] theorem State.present_fatal : (s.present f).fatal = s.fatal := rfl
@[simp] theorem State.present_rmaAddr : (s.present f).rmaAddr = s.rmaAddr := rfl
@[simp] theorem State.present_rmaData : (s.present f).rmaData = s.rmaData := rfl
@[simp] theorem State.present_rmaMode : (s.present f).rmaMode = s.rmaMode := rfl
@[simp] theorem State.present_ptimerNum : (s.present f).ptimerNum = s.ptimerNum := rfl
@[simp] theorem State.present_ptimerDen : (s.present f).ptimerDen = s.ptimerDen := rfl
@[simp] theorem State.present_ptimerTime : (s.present f).ptimerTime = s.ptimerTime := rfl
@[simp] theorem State.present_ptimerAlarm : (s.present f).ptimerAlarm = s.ptimerAlarm := rfl
@[simp] theorem State.present_vpll : (s.present f).vpll = s.vpll := rfl
@[simp] theorem State.present_mpll : (s.present f).mpll = s.mpll := rfl
@[simp] theorem State.present_pclk : (s.present f).pclk = s.pclk := rfl
@[simp] theorem State.present_mclk : (s.present f).mclk = s.mclk := rfl
@[simp] theorem State.present_pal : (s.present f).pal = s.pal := rfl
@[simp] theorem State.present_straps : (s.present f).straps = s.straps := rfl
@[simp] theorem State.present_extra : (s.present f).extra = s.extra := rfl
@[simp] theorem State.present_pg : (s.present f).pg = s.pg := rfl
@[simp] theorem State.present_notifyCtx : (s.present f).notifyCtx = s.notifyCtx := rfl
@[simp] theorem State.present_pci : (s.present f).pci = s.pci := rfl
@[simp] theorem State.present_vram : (s.present f).vram = s.vram := rfl
@[simp] theorem State.present_ramin : (s.present f).ramin = s.ramin := rfl
@[simp] theorem State.present_diag : (s.present f).diag = s.diag := rfl
@[simp] theorem State.present_events : (s.present f).events = s.events := rfl
@[simp] theorem State.present_cfg : (s.present f).cfg = s.cfg := rfl
@[simp] theorem State.present_epoch : (s.present f).epoch = s.epoch := rfl
@[simp] theorem State.present_draws : (s.present f).draws = s.draws := rfl
@[simp] theorem State.present_seq : (s.present f).seq = s.seq := rfl
@[simp] theorem State.present_stream : (s.present f).stream = f :: s.stream := rfl
@[simp] theorem State.present_reply : (s.present f).reply = s.reply := rfl

end

end Sys2Proof.Machine
end

