-- ==== Sys2Proof/Laws/Entries.lean ====
section
/-! SUPPORT. The register table of a valid configuration (rule R195): each named register has one entry,
the lookup by address finds it, and its kind is the one its name says. -/

namespace Sys2Proof.Machine

/-- The three parts of the constraint on the register table. -/
theorem rtab_ok (c : ValidCfg) :
    (∀ e ∈ c.1.rtab, c.1.entryOk e = true) ∧
    pairsOk entryPairOk c.1.rtab = true ∧
    ∀ n ∈ requiredRegs, ∃ e ∈ c.1.rtab, e.name = n := by
  have hv := c.2
  simp only [Cfg.valid, Cfg.rtabOk, Bool.and_eq_true, List.all_eq_true, List.any_eq_true,
    decide_eq_true_eq] at hv
  exact ⟨hv.1.2.1.1, hv.1.2.1.2, hv.1.2.2⟩

/-- The lookup by address finds every entry (rule R195). -/
theorem findEntry_of_mem {l : List RegEntry}
    (hp : pairsOk entryPairOk l = true)
    {e : RegEntry} (he : e ∈ l) : findEntry l e.addr = some e := by
  induction l with
  | nil => cases he
  | cons x xs ih =>
    simp only [pairsOk, entryPairOk, Bool.and_eq_true, List.all_eq_true, decide_eq_true_eq] at hp
    unfold findEntry
    rcases List.mem_cons.1 he with rfl | h
    · simp
    · rw [if_neg (hp.1 e h).1, ih hp.2 h]

/-- A lookup's entry is in the table, at the address looked up. -/
theorem mem_of_findEntry {l : List RegEntry} {a : Word} {e : RegEntry} (h : findEntry l a = some e) :
    e ∈ l ∧ e.addr = a := by
  induction l with
  | nil => simp [findEntry] at h
  | cons x xs ih =>
    unfold findEntry at h
    split at h
    · rename_i hx; cases h; exact ⟨by simp, hx⟩
    · exact ⟨by simp [(ih h).1], (ih h).2⟩

/-- The lookup by name finds an entry of that name wherever there is one. -/
theorem entryOf_spec {l : List RegEntry} (k : RegKind) {n : RegName} (h : ∃ e ∈ l, e.name = n) :
    entryOf l k n ∈ l ∧ (entryOf l k n).name = n := by
  induction l with
  | nil => obtain ⟨e, he, _⟩ := h; cases he
  | cons x xs ih =>
    unfold entryOf
    by_cases hx : x.name = n
    · rw [if_pos hx]; exact ⟨by simp, hx⟩
    · rw [if_neg hx]
      obtain ⟨e, he, hn⟩ := h
      rcases List.mem_cons.1 he with rfl | he
      · exact absurd hn hx
      · exact ⟨by simp [(ih ⟨e, he, hn⟩).1], (ih ⟨e, he, hn⟩).2⟩

/-- A name says the kind, but for the read-only constant. -/
theorem kind_of_name {e : RegEntry} :
    (∀ p, e.name = .plain p → e.kind = .plain p) ∧ (∀ r, e.name = .computed r → e.kind = .computed r) ∧
    (e.name = .pmcBoot → ∃ v, e.kind = .readOnly v) := by
  cases h : e.kind <;> simp [RegEntry.name, h]

/-- The entry of a named `Plain` register. -/
theorem plainEntry_spec (c : ValidCfg) (p : PlainReg) (h : RegName.plain p ∈ requiredRegs) :
    plainEntry c.1 p ∈ c.1.rtab ∧ (plainEntry c.1 p).kind = .plain p ∧ (plainEntry c.1 p).name = .plain p := by
  have hs := entryOf_spec (.plain p) ((rtab_ok c).2.2 _ h)
  exact ⟨hs.1, kind_of_name.1 p hs.2, hs.2⟩

/-- The entry of a named `Computed` register. -/
theorem computedEntry_spec (c : ValidCfg) (r : ComputedReg) (h : RegName.computed r ∈ requiredRegs) :
    computedEntry c.1 r ∈ c.1.rtab ∧ (computedEntry c.1 r).kind = .computed r ∧
    (computedEntry c.1 r).name = .computed r := by
  have hs := entryOf_spec (.computed r) ((rtab_ok c).2.2 _ h)
  exact ⟨hs.1, kind_of_name.2.1 r hs.2, hs.2⟩

/-- The entry of `PMC_BOOT` holds the configured constant. -/
theorem bootEntry_spec (c : ValidCfg) :
    bootEntry c.1 ∈ c.1.rtab ∧ (bootEntry c.1).kind = .readOnly c.1.pmcBootValue ∧
    (bootEntry c.1).name = .pmcBoot := by
  have hs := entryOf_spec (.readOnly c.1.pmcBootValue) ((rtab_ok c).2.2 .pmcBoot (by decide))
  obtain ⟨v, hv⟩ := kind_of_name.2.2 hs.2
  have hok := (rtab_ok c).1 _ hs.1
  simp only [Cfg.entryOk, Bool.and_eq_true] at hok
  have hk := hok.2
  unfold Cfg.entryKindOk at hk
  rw [hv] at hk
  simp only [decide_eq_true_eq] at hk
  exact ⟨hs.1, by rw [← hk]; exact hv, hs.2⟩

/-- A range that is covered: each of its addresses lies in one of the covering ranges. -/
theorem coversFrom_spec (rs : List Range) (n : Nat) {lo hi a : Nat} (h : coversFrom rs n lo hi = true)
    (hlo : lo ≤ a) (hhi : a ≤ hi) : ∃ r ∈ rs, r.lo.toNat ≤ a ∧ a ≤ r.hi.toNat := by
  induction n generalizing lo with
  | zero => simp [coversFrom] at h
  | succ k ih =>
    unfold coversFrom at h
    split at h
    · cases h
    · rename_i r hr
      have hp := List.find?_some hr
      simp only [Bool.and_eq_true, decide_eq_true_eq] at hp
      by_cases ha : a ≤ r.hi.toNat
      · exact ⟨r, List.mem_of_find?_eq_some hr, by omega, ha⟩
      · simp only [Bool.or_eq_true, decide_eq_true_eq] at h
        exact ih (h.resolve_left (by omega)) (by omega)

/-- The datum of a register that is no palette byte is that of the access. -/
theorem entryData_word (n : Width) {e : RegEntry} (h : paletteEntry e = false) (v : Word) :
    entryData n e v = accessData n v := by
  simp [entryData, h]

/-- In a 32-bit access it is the whole word. -/
theorem entryData_whole {e : RegEntry} (h : paletteEntry e = false) (v : Word) : entryData .b4 e v = v := by
  simp [entryData, h, accessData]

/-- In an access of one byte the datum of every register is the low byte. -/
@[simp] theorem entryData_byte (e : RegEntry) (v : Word) : entryData .b1 e v = v &&& 0xFF := by
  simp [entryData, accessData]

/-- A palette byte is an 8-bit entry. -/
theorem entryData_pal (n : Width) {e : RegEntry} {k : BitVec 2} (h : e.kind = .plain (.pal k)) (v : Word) :
    entryData n e v = v &&& 0xFF := by
  simp [entryData, paletteEntry, h]

/-- The datum is a low part of the word, which a mask gives. -/
theorem entryData_mask (n : Width) (e : RegEntry) : ∃ m : Word, ∀ v, entryData n e v = v &&& m := by
  by_cases h : paletteEntry e = true
  · exact ⟨0xFF, fun v => by simp [entryData, h]⟩
  · cases n
    · exact ⟨0xFF, fun v => by simp⟩
    · exact ⟨0xFFFF, fun v => by simp [entryData, h, accessData]⟩
    · refine ⟨0xFFFFFFFF, fun v => ?_⟩
      rw [entryData_whole (by simpa using h)]
      exact (BitVec.and_allOnes).symm

/-- A mask passes through it. -/
theorem entryData_and (n : Width) (e : RegEntry) (v w : Word) : entryData n e (v &&& w) = entryData n e v &&& w := by
  obtain ⟨m, h⟩ := entryData_mask n e
  rw [h, h, BitVec.and_assoc, BitVec.and_comm w, ← BitVec.and_assoc]

/-- Taking it twice takes it once. -/
@[simp] theorem entryData_entryData (n : Width) (e : RegEntry) (v : Word) :
    entryData n e (entryData n e v) = entryData n e v := by
  obtain ⟨m, h⟩ := entryData_mask n e
  rw [h, h, BitVec.and_assoc, BitVec.and_self]

end Sys2Proof.Machine
end

