-- ==== Sys2Proof/Laws/Access.lean ====
section
/-! SUPPORT. What an access to a register does, said once for each kind of register, and how an operation
completes. -/

namespace Sys2Proof.Machine

/-- While `fatal` is false an operation completes with its reply (rule R30). -/
theorem complete_next {s : State} (h : s.fatal = false) (t : State) (r : Reply) :
    complete s t r = .next (t.answer r) := by
  simp [complete, h]

/-- While `fatal` is true it has no step (rule R30). -/
theorem complete_stopped {s : State} (h : s.fatal = true) (t : State) (r : Reply) :
    complete s t r = .fault .blockStopped := by
  simp [complete, h]

/-- An operation that answers a next state answers the one it completes with. -/
theorem complete_eq_next {s t u : State} {r : Reply} (h : complete s t r = .next u) :
    s.fatal = false ∧ u = t.answer r := by
  unfold complete at h
  split at h
  · cases h
  · rename_i hf
    cases h
    exact ⟨by simpa using hf, rfl⟩

/-- The last reply is what stays of two. -/
@[simp] theorem State.answer_answer (s : State) (p q : Reply) : (s.answer p).answer q = s.answer q := rfl

/-- A read of a `Computed` register (rule R190). -/
theorem regAccess_read_computed (r : ComputedReg) (hr : RegName.computed r ∈ requiredRegs) {s : State}
    (h : s.fatal = false) {e : RegEntry} (he : e = computedEntry s.cfg.1 r) :
    regAccess e .read s =
      .next (((computedRead r s).1.addDiag .access e.addr (regData s.cfg.1 e (computedRead r s).2)
        (.reg (.computed r))).answer (.u32 (regData s.cfg.1 e (computedRead r s).2))) := by
  subst he
  obtain ⟨-, hk, hn⟩ := computedEntry_spec s.cfg r hr
  have hv : kindRead (computedEntry s.cfg.1 r) s = computedRead r s := by rw [kindRead, hk]
  rw [regAccess, complete_next h, entryRead, entryValue, hv, hn]
  rfl

/-- A write of a `Computed` register (rule R190). -/
theorem regAccess_write_computed (r : ComputedReg) (hr : RegName.computed r ∈ requiredRegs) (v : Word) {s : State}
    (h : s.fatal = false) {e : RegEntry} (he : e = computedEntry s.cfg.1 r) :
    regAccess e (.write v) s =
      .next (((computedWrite r e.addr (regData s.cfg.1 e v) s).addDiag .access e.addr (regData s.cfg.1 e v)
        (.reg (.computed r))).answer .nothing) := by
  subst he
  obtain ⟨-, hk, hn⟩ := computedEntry_spec s.cfg r hr
  have hw (w : Word) : kindWrite (computedEntry s.cfg.1 r) w s =
      computedWrite r (computedEntry s.cfg.1 r).addr w s := by rw [kindWrite, hk]
  rw [regAccess, complete_next h, entryWrite, hw, hn]
  rfl

/-- A read of a named `Plain` register (rules R190, R191). -/
theorem regAccess_read_plain (p : PlainReg) (hp : RegName.plain p ∈ requiredRegs) {s : State}
    (h : s.fatal = false) {e : RegEntry} (he : e = plainEntry s.cfg.1 p) :
    regAccess e .read s =
      .next ((s.addDiag .access e.addr (regData s.cfg.1 e (s.plainGet p e.addr &&& e.mask))
        (.reg (.plain p))).answer (.u32 (regData s.cfg.1 e (s.plainGet p e.addr &&& e.mask)))) := by
  subst he
  obtain ⟨-, hk, hn⟩ := plainEntry_spec s.cfg p hp
  have hr : kindRead (plainEntry s.cfg.1 p) s =
      (s, s.plainGet p (plainEntry s.cfg.1 p).addr &&& (plainEntry s.cfg.1 p).mask) := by
    simp only [kindRead, hk]
  rw [regAccess, complete_next h, entryRead, entryValue, hr, hn]
  rfl

/-- A write of a named `Plain` register (rules R190, R191). -/
theorem regAccess_write_plain (p : PlainReg) (hp : RegName.plain p ∈ requiredRegs) (v : Word) {s : State}
    (h : s.fatal = false) {e : RegEntry} (he : e = plainEntry s.cfg.1 p) :
    regAccess e (.write v) s =
      .next (((s.plainSet p e.addr (regData s.cfg.1 e v &&& e.mask)).addDiag .access e.addr
        (regData s.cfg.1 e v) (.reg (.plain p))).answer .nothing) := by
  subst he
  obtain ⟨-, hk, hn⟩ := plainEntry_spec s.cfg p hp
  have hw (w : Word) : kindWrite (plainEntry s.cfg.1 p) w s =
      s.plainSet p (plainEntry s.cfg.1 p).addr (w &&& (plainEntry s.cfg.1 p).mask) := by
    simp only [kindWrite, hk]
  rw [regAccess, complete_next h, entryWrite, hw, hn]
  rfl

/-- An access to `PMC_BOOT` (rule R171). -/
theorem regAccess_boot {s : State} (h : s.fatal = false) {e : RegEntry} (he : e = bootEntry s.cfg.1) :
    regAccess e .read s =
      .next ((s.addDiag .access e.addr (regData s.cfg.1 e s.cfg.1.pmcBootValue) (.reg .pmcBoot)).answer
        (.u32 (regData s.cfg.1 e s.cfg.1.pmcBootValue))) ∧
    ∀ v, regAccess e (.write v) s =
      .next ((s.addDiag .access e.addr (regData s.cfg.1 e v) (.reg .pmcBoot)).answer .nothing) := by
  subst he
  obtain ⟨-, hk, hn⟩ := bootEntry_spec s.cfg
  have hr : kindRead (bootEntry s.cfg.1) s = (s, s.cfg.1.pmcBootValue) := by rw [kindRead, hk]
  have hw (w : Word) : kindWrite (bootEntry s.cfg.1) w s = s := by rw [kindWrite, hk]
  constructor
  · rw [regAccess, complete_next h, entryRead, entryValue, hr, hn]
    rfl
  · intro v
    rw [regAccess, complete_next h, entryWrite, hw, hn]
    rfl

end Sys2Proof.Machine
end

