-- ==== Sys2Proof/Laws/Interrupts.lean ====
section
/-! SUPPORT. The interrupt aggregator: everything `Recompute` can do, said once, and what it leaves. -/

namespace Sys2Proof.Machine

/-- The level the line takes from a recompute (rule R176). -/
def lineAfter (sendNow : Bool) (s : State) : Bool :=
  if s.pmcIntrEn = 0 then false
  else if !sendNow then s.irqLine
  else if s.aggregate = 0 then false
  else if lineWanted s.cfg.1 s.aggregate s.pmcIntrEn then true
  else s.irqLine

/-- The suppressed case of a recompute (rule R176). -/
def suppressed (sendNow : Bool) (s : State) : Bool :=
  sendNow && decide (s.pmcIntrEn ≠ 0) && decide (s.aggregate ≠ 0) &&
    !lineWanted s.cfg.1 s.aggregate s.pmcIntrEn

/-- The record of the suppressed case. -/
def suppressedRecord (s : State) : DiagRecord :=
  { kind := .irqSuppressed, addr := (computedEntry s.cfg.1 .pmcIntr).addr, value := s.aggregate,
    name := .reg (.computed .pmcIntr) }

/-- Everything a recompute does: it stores the aggregate, sets the line, and logs the suppressed case. -/
theorem recompute_eq (sendNow : Bool) (s : State) :
    recompute sendNow s =
      { s with
        pmcIntr := s.aggregate
        irqLine := lineAfter sendNow s
        diag := s.diag ++ (if suppressed sendNow s then [suppressedRecord s] else []) } := by
  unfold recompute lineAfter suppressed suppressedRecord State.setLine State.addDiag
  by_cases h1 : s.pmcIntrEn = 0
  · simp only [h1, if_true, ne_eq, not_true_eq_false, decide_false, Bool.and_false, Bool.false_and,
      Bool.false_eq_true, if_false, List.append_nil]
  · cases sendNow
    · simp only [h1, if_false, Bool.not_false, if_true, Bool.false_and, Bool.false_eq_true, List.append_nil]
    · by_cases h2 : s.aggregate = 0
      · simp only [h1, h2, if_false, if_true, Bool.not_true, Bool.false_eq_true, ne_eq, not_true_eq_false,
          decide_false, Bool.and_false, Bool.false_and, List.append_nil]
      · by_cases h3 : lineWanted s.cfg.1 s.aggregate s.pmcIntrEn = true
        · simp only [h1, h2, h3, if_false, if_true, Bool.not_true, Bool.false_eq_true, Bool.and_false,
            List.append_nil]
        · simp only [Bool.not_eq_true] at h3
          simp only [h1, h2, h3, if_false, if_true, Bool.not_true, Bool.not_false, Bool.false_eq_true, ne_eq,
            not_false_eq_true, decide_true, Bool.and_true]

section

variable (b : Bool) (s : State)

@[simp] theorem recompute_pmcIntr : (recompute b s).pmcIntr = s.aggregate := by rw [recompute_eq]
@[simp] theorem recompute_irqLine : (recompute b s).irqLine = lineAfter b s := by rw [recompute_eq]
@[simp] theorem recompute_intr : (recompute b s).intr = s.intr := by rw [recompute_eq]
@[simp] theorem recompute_intrEn : (recompute b s).intrEn = s.intrEn := by rw [recompute_eq]
@[simp] theorem recompute_pmcIntrEn : (recompute b s).pmcIntrEn = s.pmcIntrEn := by rw [recompute_eq]
@[simp] theorem recompute_pmcEnable : (recompute b s).pmcEnable = s.pmcEnable := by rw [recompute_eq]
@[simp] theorem recompute_fatal : (recompute b s).fatal = s.fatal := by rw [recompute_eq]
@[simp] theorem recompute_rmaAddr : (recompute b s).rmaAddr = s.rmaAddr := by rw [recompute_eq]
@[simp] theorem recompute_rmaData : (recompute b s).rmaData = s.rmaData := by rw [recompute_eq]
@[simp] theorem recompute_rmaMode : (recompute b s).rmaMode = s.rmaMode := by rw [recompute_eq]
@[simp] theorem recompute_ptimerNum : (recompute b s).ptimerNum = s.ptimerNum := by rw [recompute_eq]
@[simp] theorem recompute_ptimerDen : (recompute b s).ptimerDen = s.ptimerDen := by rw [recompute_eq]
@[simp] theorem recompute_ptimerTime : (recompute b s).ptimerTime = s.ptimerTime := by rw [recompute_eq]
@[simp] theorem recompute_ptimerAlarm : (recompute b s).ptimerAlarm = s.ptimerAlarm := by rw [recompute_eq]
@[simp] theorem recompute_vpll : (recompute b s).vpll = s.vpll := by rw [recompute_eq]
@[simp] theorem recompute_mpll : (recompute b s).mpll = s.mpll := by rw [recompute_eq]
@[simp] theorem recompute_pclk : (recompute b s).pclk = s.pclk := by rw [recompute_eq]
@[simp] theorem recompute_mclk : (recompute b s).mclk = s.mclk := by rw [recompute_eq]
@[simp] theorem recompute_pal : (recompute b s).pal = s.pal := by rw [recompute_eq]
@[simp] theorem recompute_straps : (recompute b s).straps = s.straps := by rw [recompute_eq]
@[simp] theorem recompute_extra : (recompute b s).extra = s.extra := by rw [recompute_eq]
@[simp] theorem recompute_pg : (recompute b s).pg = s.pg := by rw [recompute_eq]
@[simp] theorem recompute_notifyCtx : (recompute b s).notifyCtx = s.notifyCtx := by rw [recompute_eq]
@[simp] theorem recompute_pci : (recompute b s).pci = s.pci := by rw [recompute_eq]
@[simp] theorem recompute_vram : (recompute b s).vram = s.vram := by rw [recompute_eq]
@[simp] theorem recompute_ramin : (recompute b s).ramin = s.ramin := by rw [recompute_eq]
@[simp] theorem recompute_events : (recompute b s).events = s.events := by rw [recompute_eq]
@[simp] theorem recompute_cfg : (recompute b s).cfg = s.cfg := by rw [recompute_eq]
@[simp] theorem recompute_epoch : (recompute b s).epoch = s.epoch := by rw [recompute_eq]
@[simp] theorem recompute_draws : (recompute b s).draws = s.draws := by rw [recompute_eq]
@[simp] theorem recompute_seq : (recompute b s).seq = s.seq := by rw [recompute_eq]
@[simp] theorem recompute_stream : (recompute b s).stream = s.stream := by rw [recompute_eq]
@[simp] theorem recompute_reply : (recompute b s).reply = s.reply := by rw [recompute_eq]

end

/-! ### The aggregate -/

/-- The banks' contribution depends on the pairs and the configuration alone. -/
theorem State.hwBits_congr {s t : State} (hc : t.cfg = s.cfg) (hi : t.intr = s.intr) (he : t.intrEn = s.intrEn) :
    t.hwBits = s.hwBits := by
  unfold State.hwBits State.bankBit State.bankPending State.intrOf State.intrEnOf
  rw [hc, hi, he]

@[simp] theorem recompute_hwBits (b : Bool) (s : State) : (recompute b s).hwBits = s.hwBits :=
  State.hwBits_congr (by simp) (by simp) (by simp)

/-- In a valid configuration every routed position is below 31. -/
theorem pmcBitOf_lt (c : ValidCfg) (b : IntrBank) (k : Nat) (h : pmcBitOf c.1.pmcBit b = some k) : k < 31 := by
  have hv := c.2
  simp only [Cfg.valid, Cfg.pmcBitOk, Bool.and_eq_true, List.all_eq_true, decide_eq_true_eq] at hv
  have hall := hv.2.1
  clear hv
  generalize c.1.pmcBit = l at h hall
  induction l with
  | nil => simp [pmcBitOf] at h
  | cons p rest ih =>
    unfold pmcBitOf at h
    split at h
    · cases h; exact hall p (by simp)
    · exact ih h (fun x hx => hall x (by simp [hx]))

/-- A bank's bit is its routed position's, when the bank is pending and enabled. -/
theorem bankBit_getLsbD (s : State) (b : IntrBank) (k : Nat) :
    (s.bankBit b).getLsbD k = (decide (pmcBitOf s.cfg.1.pmcBit b = some k) && s.bankPending b) := by
  unfold State.bankBit
  cases h : pmcBitOf s.cfg.1.pmcBit b with
  | none => simp
  | some j =>
    have hj := pmcBitOf_lt s.cfg b j h
    cases hp : s.bankPending b with
    | false => simp
    | true =>
      simp only [if_true, Option.some.injEq, Bool.and_true]
      have hone : (1 : Word) <<< j = BitVec.twoPow 32 j := by rw [BitVec.twoPow_eq]; rfl
      rw [hone, BitVec.getLsbD_twoPow]
      by_cases hk : j = k
      · subst hk; simp; omega
      · simp [hk]

/-- The bits of the banks' contribution. -/
theorem hwBits_getLsbD (s : State) (k : Nat) :
    s.hwBits.getLsbD k =
      allIntrBanks.any (fun b => decide (pmcBitOf s.cfg.1.pmcBit b = some k) && s.bankPending b) := by
  unfold State.hwBits
  generalize allIntrBanks = l
  induction l with
  | nil => simp
  | cons b rest ih => rw [List.foldr_cons, BitVec.getLsbD_or, bankBit_getLsbD, ih, List.any_cons]

/-- Bit 31 is the software-origin bit: no bank reaches it. -/
theorem hwBits_bit31 (s : State) : s.hwBits.getLsbD 31 = false := by
  rw [hwBits_getLsbD, List.any_eq_false]
  intro b _
  simp only [Bool.and_eq_true, decide_eq_true_eq, not_and]
  intro h
  have := pmcBitOf_lt s.cfg b 31 h
  omega

theorem swBit_getLsbD (k : Nat) : swBit.getLsbD k = decide (k = 31) := by
  have h : swBit = BitVec.twoPow 32 31 := by decide
  rw [h, BitVec.getLsbD_twoPow]
  by_cases hk : 31 = k
  · subst hk; rfl
  · simp [hk, Ne.symm hk]

theorem not_swBit_getLsbD (k : Nat) (hk : k < 32) : (~~~swBit).getLsbD k = decide (k ≠ 31) := by
  rw [BitVec.getLsbD_not, swBit_getLsbD]
  simp only [hk, decide_true, Bool.true_and, ne_eq, decide_not]

/-- The bits of the aggregate. -/
theorem aggregate_getLsbD (s : State) (k : Nat) :
    s.aggregate.getLsbD k = if k = 31 then s.pmcIntr.getLsbD 31 else s.hwBits.getLsbD k := by
  rw [State.aggregate, BitVec.getLsbD_or, BitVec.getLsbD_and, swBit_getLsbD]
  by_cases h : k = 31
  · subst h; rw [hwBits_bit31]; simp only [decide_true, Bool.and_true, Bool.or_false, if_true]
  · simp only [h, decide_false, Bool.and_false, Bool.false_or, if_false]

/-- The aggregate below bit 31 is what the banks' pairs give (rule R177). -/
theorem aggregate_and_not_swBit (s : State) : s.aggregate &&& ~~~swBit = s.hwBits := by
  apply BitVec.eq_of_getLsbD_eq
  intro k hk
  rw [BitVec.getLsbD_and, aggregate_getLsbD, not_swBit_getLsbD k hk]
  by_cases h : k = 31
  · subst h; rw [hwBits_bit31]; simp only [ne_eq, not_true_eq_false, decide_false, Bool.and_false]
  · simp only [h, if_false, ne_eq, not_false_eq_true, decide_true, Bool.and_true]

/-- Where the aggregate is current, recomputing it changes nothing (rule R177). -/
theorem aggregate_of_current {s : State} (h : s.pmcIntr &&& ~~~swBit = s.hwBits) : s.aggregate = s.pmcIntr := by
  apply BitVec.eq_of_getLsbD_eq
  intro k hk
  rw [aggregate_getLsbD, ← h, BitVec.getLsbD_and, not_swBit_getLsbD k hk]
  by_cases h31 : k = 31
  · subst h31; simp only [if_true]
  · simp only [h31, if_false, ne_eq, not_false_eq_true, decide_true, Bool.and_true]

end Sys2Proof.Machine
end

