-- ==== Sys2Proof/Laws/Memory.lean ====
section
/-! SUPPORT. The byte lists and the byte arrays: read after write, the one form is kept, and what a
write of one byte or of several changes. -/

namespace Sys2Proof.Machine

/-! ### Byte lists -/

theorem memGet_memSet (m : Mem) (k : Nat) (v : Byte) (j : Nat) :
    memGet (memSet m k v) j = if k = j then some v else memGet m j := by
  induction m with
  | nil => simp [memSet, memGet]
  | cons c rest ih =>
    unfold memSet
    by_cases h1 : k < c.1
    · simp [h1, memGet]
    · by_cases h2 : c.1 = k
      · subst h2
        simp only [Nat.lt_irrefl, if_false, if_true, memGet]
        by_cases h3 : c.1 = j <;> simp [h3]
      · simp only [h1, h2, if_false, memGet, ih]
        by_cases h3 : c.1 = j
        · subst h3; simp [Ne.symm h2]
        · simp [h3]

/-- The least offset of a list that a write leaves is the written one or an old one. -/
theorem memSet_head (m : Mem) (k : Nat) (v : Byte) :
    ∃ c rest, memSet m k v = c :: rest ∧ (c.1 = k ∨ ∃ old, m.head? = some old ∧ c.1 = old.1) := by
  cases m with
  | nil => exact ⟨_, _, rfl, .inl rfl⟩
  | cons d rest =>
    unfold memSet
    by_cases h1 : k < d.1
    · exact ⟨_, _, by simp only [h1, if_true]; rfl, .inl rfl⟩
    · by_cases h2 : d.1 = k
      · exact ⟨_, _, by simp only [h2, Nat.lt_irrefl, if_false, if_true]; rfl, .inl rfl⟩
      · exact ⟨_, _, by simp only [h1, h2, if_false]; rfl, .inr ⟨d, rfl, rfl⟩⟩

theorem Mem.wf_cons (c : Host.Cell) (m : Mem) :
    Mem.wf (c :: m) = true ↔ (∀ d, m.head? = some d → c.1 < d.1) ∧ Mem.wf m = true := by
  cases m with
  | nil => simp [Mem.wf]
  | cons d rest => simp [Mem.wf]

/-- A write keeps the strict order of the offsets. -/
theorem memSet_wf (m : Mem) (k : Nat) (v : Byte) (h : Mem.wf m = true) : Mem.wf (memSet m k v) = true := by
  induction m with
  | nil => rfl
  | cons c rest ih =>
    have hr := (Mem.wf_cons c rest).1 h
    unfold memSet
    by_cases h1 : k < c.1
    · simp only [h1, if_true]
      exact (Mem.wf_cons _ _).2 ⟨fun d hd => by simp only [List.head?_cons, Option.some.injEq] at hd; subst hd; exact h1, h⟩
    · by_cases h2 : c.1 = k
      · subst h2
        simp only [Nat.lt_irrefl, if_false, if_true]
        exact (Mem.wf_cons _ _).2 hr
      · simp only [h1, h2, if_false]
        refine (Mem.wf_cons _ _).2 ⟨fun d hd => ?_, ih hr.2⟩
        obtain ⟨e, es, he, ho⟩ := memSet_head rest k v
        rw [he, List.head?_cons, Option.some.injEq] at hd
        subst hd
        rcases ho with ho | ⟨old, hold, ho⟩
        · omega
        · rw [ho]; exact hr.1 _ hold

/-- A write inside the bound keeps every offset inside it. -/
theorem memSet_below (m : Mem) (k : Nat) (v : Byte) (size : Nat) (h : memBelow m size = true) (hk : k < size) :
    memBelow (memSet m k v) size = true := by
  induction m with
  | nil => simp [memSet, memBelow, hk]
  | cons c rest ih =>
    simp only [memBelow, List.all_cons, Bool.and_eq_true, decide_eq_true_eq] at h ih ⊢
    unfold memSet
    split
    · simp [hk, h]
    · split
      · simp [hk, h]
      · simp only [List.all_cons, Bool.and_eq_true, decide_eq_true_eq]
        exact ⟨h.1, ih h.2⟩

/-! ### Byte arrays -/

/-- The size of a byte array depends on the configuration alone. -/
theorem State.arraySize_congr {s t : State} (h : t.cfg = s.cfg) (sp : Space) : t.arraySize sp = s.arraySize sp := by
  cases sp <;> simp [State.arraySize, h]

/-- A byte depends on the byte arrays, the configuration and the count of RESETs alone. -/
theorem State.byteAt_congr {s t : State} (hc : t.cfg = s.cfg) (he : t.epoch = s.epoch) (hv : t.vram = s.vram)
    (hr : t.ramin = s.ramin) (sp : Space) (off : Nat) : t.byteAt sp off = s.byteAt sp off := by
  cases sp <;> simp [State.byteAt, State.arrayMem, State.unlisted, State.arraySize, hc, he, hv, hr]

/-- A word of a byte array depends on its bytes alone. -/
theorem State.memRead_congr {s t : State} {sp : Space} {off : Nat} (h : ∀ o, t.byteAt sp o = s.byteAt sp o)
    (n : Width) : t.memRead sp off n = s.memRead sp off n := by
  cases n <;> simp [State.memRead, h]

/-- Read after a write of one byte: the written offset, reduced modulo the size, holds the byte; every
other one holds what it held. PROM never changes. -/
theorem State.byteAt_setByte (s : State) (sp : Space) (off : Nat) (v : Byte) (sp' : Space) (j : Nat) :
    (s.setByte sp off v).byteAt sp' j =
      if sp = sp' ∧ sp ≠ .prom ∧ off % s.arraySize sp = j % s.arraySize sp then v else s.byteAt sp' j := by
  cases sp <;> cases sp' <;>
    simp only [State.setByte, State.byteAt, State.arrayMem, State.unlisted, State.arraySize, memGet_memSet,
      reduceCtorEq, ne_eq, not_true_eq_false, not_false_eq_true, true_and, false_and, and_false, if_false]
  · by_cases h : off % s.cfg.1.vramSize = j % s.cfg.1.vramSize <;> simp [h]
  · by_cases h : off % s.cfg.1.raminSize = j % s.cfg.1.raminSize <;> simp [h]

/-! ### What a write leaves -/

section

variable (s : State) (sp : Space) (off : Nat) (v : Byte)

@[simp] theorem State.setByte_intr : (s.setByte sp off v).intr = s.intr := by cases sp <;> rfl
@[simp] theorem State.setByte_intrEn : (s.setByte sp off v).intrEn = s.intrEn := by cases sp <;> rfl
@[simp] theorem State.setByte_pmcIntr : (s.setByte sp off v).pmcIntr = s.pmcIntr := by cases sp <;> rfl
@[simp] theorem State.setByte_pmcIntrEn : (s.setByte sp off v).pmcIntrEn = s.pmcIntrEn := by cases sp <;> rfl
@[simp] theorem State.setByte_pmcEnable : (s.setByte sp off v).pmcEnable = s.pmcEnable := by cases sp <;> rfl
@[simp] theorem State.setByte_irqLine : (s.setByte sp off v).irqLine = s.irqLine := by cases sp <;> rfl
@[simp] theorem State.setByte_fatal : (s.setByte sp off v).fatal = s.fatal := by cases sp <;> rfl
@[simp] theorem State.setByte_rmaAddr : (s.setByte sp off v).rmaAddr = s.rmaAddr := by cases sp <;> rfl
@[simp] theorem State.setByte_rmaData : (s.setByte sp off v).rmaData = s.rmaData := by cases sp <;> rfl
@[simp] theorem State.setByte_rmaMode : (s.setByte sp off v).rmaMode = s.rmaMode := by cases sp <;> rfl
@[simp] theorem State.setByte_ptimerNum : (s.setByte sp off v).ptimerNum = s.ptimerNum := by cases sp <;> rfl
@[simp] theorem State.setByte_ptimerDen : (s.setByte sp off v).ptimerDen = s.ptimerDen := by cases sp <;> rfl
@[simp] theorem State.setByte_ptimerTime : (s.setByte sp off v).ptimerTime = s.ptimerTime := by cases sp <;> rfl
@[simp] theorem State.setByte_ptimerAlarm : (s.setByte sp off v).ptimerAlarm = s.ptimerAlarm := by cases sp <;> rfl
@[simp] theorem State.setByte_vpll : (s.setByte sp off v).vpll = s.vpll := by cases sp <;> rfl
@[simp] theorem State.setByte_mpll : (s.setByte sp off v).mpll = s.mpll := by cases sp <;> rfl
@[simp] theorem State.setByte_pclk : (s.setByte sp off v).pclk = s.pclk := by cases sp <;> rfl
@[simp] theorem State.setByte_mclk : (s.setByte sp off v).mclk = s.mclk := by cases sp <;> rfl
@[simp] theorem State.setByte_pal : (s.setByte sp off v).pal = s.pal := by cases sp <;> rfl
@[simp] theorem State.setByte_straps : (s.setByte sp off v).straps = s.straps := by cases sp <;> rfl
@[simp] theorem State.setByte_extra : (s.setByte sp off v).extra = s.extra := by cases sp <;> rfl
@[simp] theorem State.setByte_pg : (s.setByte sp off v).pg = s.pg := by cases sp <;> rfl
@[simp] theorem State.setByte_notifyCtx : (s.setByte sp off v).notifyCtx = s.notifyCtx := by cases sp <;> rfl
@[simp] theorem State.setByte_pci : (s.setByte sp off v).pci = s.pci := by cases sp <;> rfl
@[simp] theorem State.setByte_diag : (s.setByte sp off v).diag = s.diag := by cases sp <;> rfl
@[simp] theorem State.setByte_events : (s.setByte sp off v).events = s.events := by cases sp <;> rfl
@[simp] theorem State.setByte_cfg : (s.setByte sp off v).cfg = s.cfg := by cases sp <;> rfl
@[simp] theorem State.setByte_epoch : (s.setByte sp off v).epoch = s.epoch := by cases sp <;> rfl
@[simp] theorem State.setByte_draws : (s.setByte sp off v).draws = s.draws := by cases sp <;> rfl
@[simp] theorem State.setByte_seq : (s.setByte sp off v).seq = s.seq := by cases sp <;> rfl
@[simp] theorem State.setByte_stream : (s.setByte sp off v).stream = s.stream := by cases sp <;> rfl
@[simp] theorem State.setByte_reply : (s.setByte sp off v).reply = s.reply := by cases sp <;> rfl

end

section

variable (s : State) (sp : Space) (off : Nat) (n : Width) (v : Word)

@[simp] theorem State.memWrite_intr : (s.memWrite sp off n v).intr = s.intr := by
  cases n <;> simp [State.memWrite]
@[simp] theorem State.memWrite_intrEn : (s.memWrite sp off n v).intrEn = s.intrEn := by
  cases n <;> simp [State.memWrite]
@[simp] theorem State.memWrite_pmcIntr : (s.memWrite sp off n v).pmcIntr = s.pmcIntr := by
  cases n <;> simp [State.memWrite]
@[simp] theorem State.memWrite_pmcIntrEn : (s.memWrite sp off n v).pmcIntrEn = s.pmcIntrEn := by
  cases n <;> simp [State.memWrite]
@[simp] theorem State.memWrite_pmcEnable : (s.memWrite sp off n v).pmcEnable = s.pmcEnable := by
  cases n <;> simp [State.memWrite]
@[simp] theorem State.memWrite_irqLine : (s.memWrite sp off n v).irqLine = s.irqLine := by
  cases n <;> simp [State.memWrite]
@[simp] theorem State.memWrite_fatal : (s.memWrite sp off n v).fatal = s.fatal := by
  cases n <;> simp [State.memWrite]
@[simp] theorem State.memWrite_rmaAddr : (s.memWrite sp off n v).rmaAddr = s.rmaAddr := by
  cases n <;> simp [State.memWrite]
@[simp] theorem State.memWrite_rmaData : (s.memWrite sp off n v).rmaData = s.rmaData := by
  cases n <;> simp [State.memWrite]
@[simp] theorem State.memWrite_rmaMode : (s.memWrite sp off n v).rmaMode = s.rmaMode := by
  cases n <;> simp [State.memWrite]
@[simp] theorem State.memWrite_ptimerNum : (s.memWrite sp off n v).ptimerNum = s.ptimerNum := by
  cases n <;> simp [State.memWrite]
@[simp] theorem State.memWrite_ptimerDen : (s.memWrite sp off n v).ptimerDen = s.ptimerDen := by
  cases n <;> simp [State.memWrite]
@[simp] theorem State.memWrite_ptimerTime : (s.memWrite sp off n v).ptimerTime = s.ptimerTime := by
  cases n <;> simp [State.memWrite]
@[simp] theorem State.memWrite_ptimerAlarm : (s.memWrite sp off n v).ptimerAlarm = s.ptimerAlarm := by
  cases n <;> simp [State.memWrite]
@[simp] theorem State.memWrite_vpll : (s.memWrite sp off n v).vpll = s.vpll := by
  cases n <;> simp [State.memWrite]
@[simp] theorem State.memWrite_mpll : (s.memWrite sp off n v).mpll = s.mpll := by
  cases n <;> simp [State.memWrite]
@[simp] theorem State.memWrite_pclk : (s.memWrite sp off n v).pclk = s.pclk := by
  cases n <;> simp [State.memWrite]
@[simp] theorem State.memWrite_mclk : (s.memWrite sp off n v).mclk = s.mclk := by
  cases n <;> simp [State.memWrite]
@[simp] theorem State.memWrite_pal : (s.memWrite sp off n v).pal = s.pal := by
  cases n <;> simp [State.memWrite]
@[simp] theorem State.memWrite_straps : (s.memWrite sp off n v).straps = s.straps := by
  cases n <;> simp [State.memWrite]
@[simp] theorem State.memWrite_extra : (s.memWrite sp off n v).extra = s.extra := by
  cases n <;> simp [State.memWrite]
@[simp] theorem State.memWrite_pg : (s.memWrite sp off n v).pg = s.pg := by
  cases n <;> simp [State.memWrite]
@[simp] theorem State.memWrite_notifyCtx : (s.memWrite sp off n v).notifyCtx = s.notifyCtx := by
  cases n <;> simp [State.memWrite]
@[simp] theorem State.memWrite_pci : (s.memWrite sp off n v).pci = s.pci := by
  cases n <;> simp [State.memWrite]
@[simp] theorem State.memWrite_diag : (s.memWrite sp off n v).diag = s.diag := by
  cases n <;> simp [State.memWrite]
@[simp] theorem State.memWrite_events : (s.memWrite sp off n v).events = s.events := by
  cases n <;> simp [State.memWrite]
@[simp] theorem State.memWrite_cfg : (s.memWrite sp off n v).cfg = s.cfg := by
  cases n <;> simp [State.memWrite]
@[simp] theorem State.memWrite_epoch : (s.memWrite sp off n v).epoch = s.epoch := by
  cases n <;> simp [State.memWrite]
@[simp] theorem State.memWrite_draws : (s.memWrite sp off n v).draws = s.draws := by
  cases n <;> simp [State.memWrite]
@[simp] theorem State.memWrite_seq : (s.memWrite sp off n v).seq = s.seq := by
  cases n <;> simp [State.memWrite]
@[simp] theorem State.memWrite_stream : (s.memWrite sp off n v).stream = s.stream := by
  cases n <;> simp [State.memWrite]
@[simp] theorem State.memWrite_reply : (s.memWrite sp off n v).reply = s.reply := by
  cases n <;> simp [State.memWrite]

end

/-- Read after a write of `n` bytes: each byte is the last one stored to it, else what it was. -/
theorem State.byteAt_memWrite (s : State) (sp : Space) (off : Nat) (n : Width) (v : Word) (j : Nat) (hp : sp ≠ .prom) :
    (s.memWrite sp off n v).byteAt sp j =
      if 3 < n.bytes ∧ (off + 3) % s.arraySize sp = j % s.arraySize sp then byteOf v 3
      else if 2 < n.bytes ∧ (off + 2) % s.arraySize sp = j % s.arraySize sp then byteOf v 2
      else if 1 < n.bytes ∧ (off + 1) % s.arraySize sp = j % s.arraySize sp then byteOf v 1
      else if off % s.arraySize sp = j % s.arraySize sp then byteOf v 0
      else s.byteAt sp j := by
  have hs (t : State) (o : Nat) (b : Byte) : (t.setByte sp o b).arraySize sp = t.arraySize sp :=
    State.arraySize_congr (by simp) sp
  cases n <;> simp [State.memWrite, State.byteAt_setByte, hs, hp, Width.bytes]

/-- A write of VRAM changes VRAM alone. -/
theorem State.memWrite_vram_frame (s : State) (off : Nat) (n : Width) (v : Word) :
    { s.memWrite .vram off n v with vram := s.vram } = s := by
  cases n <;> simp only [State.memWrite, State.setByte]

/-- A write of RAMIN changes RAMIN alone. -/
theorem State.memWrite_ramin_frame (s : State) (off : Nat) (n : Width) (v : Word) :
    { s.memWrite .ramin off n v with ramin := s.ramin } = s := by
  cases n <;> simp only [State.memWrite, State.setByte]

/-- A write to one array leaves the bytes of every other. -/
theorem State.byteAt_memWrite_other (s : State) (sp sp' : Space) (off : Nat) (n : Width) (v : Word) (j : Nat)
    (h : sp ≠ sp') : (s.memWrite sp off n v).byteAt sp' j = s.byteAt sp' j := by
  cases n <;> simp [State.memWrite, State.byteAt_setByte, h]

/-- PROM is read-only. -/
@[simp] theorem State.memWrite_prom (s : State) (off : Nat) (n : Width) (v : Word) :
    s.memWrite .prom off n v = s := by
  cases n <;> rfl

end Sys2Proof.Machine
end

