-- ==== Sys2Proof/Laws/Moves.lean ====
section
/-! SUPPORT. Everything an operation can do, said once: whatever an operation other than RESET does is a
sequence of the elementary changes listed here, and only an unknown class adds the stop. A property of
all operations is then a case analysis over the elementary changes. -/

namespace Sys2Proof.Machine

/-- An elementary change of the state. -/
inductive Move : State → State → Prop where
  | log (s : State) (k : DiagKind) (a v : Word) (n : DiagName) : Move s (s.addDiag k a v n)
  | event (s : State) (e : Event) : Move s (s.addEvent e)
  | draw (s : State) : Move s s.drawn
  | plain (s : State) (p : PlainReg) (a v : Word) : Move s (s.plainSet p a v)
  | straps (s : State) (v : Word) : Move s { s with straps := v }
  | time (s : State) (t : DWord) : Move s { s with ptimerTime := t }
  | alarm (s : State) (t : DWord) : Move s { s with ptimerAlarm := s.ptimerAlarm ||| t }
  | vpll (s : State) (v : Word) :
      Move s { s with vpll := v, pclk := { armed := true, period := synthPeriod s.cfg.1 v } }
  | mpll (s : State) (v : Word) :
      Move s { s with mpll := v, mclk := { armed := true, period := synthPeriod s.cfg.1 v } }
  | readAggregate (s : State) : Move s (recompute false s)
  | aggregate (s : State) (v : Word) : Move s (recompute true { s with pmcIntr := v })
  | enable (s : State) (v : Word) : Move s (recompute true { s with pmcIntrEn := v &&& enMask s.cfg.1 })
  | pair (s : State) (b : IntrBank) (v : Word) : Move s (recompute true (s.setIntr b v))
  | pairEnable (s : State) (b : IntrBank) (v : Word) : Move s (recompute true (s.setIntrEn b v))
  | pci (s : State) (off v : Byte) (h : ¬ off ≤ 0x03) : Move s (s.setPci off (cfgStored s.cfg.1 off v))
  | byte (s : State) (sp : Space) (off : Nat) (v : Byte) : Move s (s.setByte sp off v)
  | rmaAddr (s : State) (v : Word) : Move s { s with rmaAddr := v }
  | rmaData (s : State) (v : Word) : Move s { s with rmaData := v }
  | rmaMode (s : State) (v : Byte) : Move s { s with rmaMode := v }
  | rendering (s : State) (p : Pgraph) : Move s { s with pg := p }
  | notifyCtx (s : State) (c : Word) : Move s { s with notifyCtx := some c }
  | answer (s : State) (r : Reply) : Move s (s.answer r)

/-- A sequence of elementary changes. -/
inductive Moves : State → State → Prop where
  | refl (s : State) : Moves s s
  | step {s t u : State} : Moves s t → Move t u → Moves s u

theorem Move.moves {s t : State} (h : Move s t) : Moves s t := .step (.refl s) h

theorem Moves.trans {s t u : State} (h : Moves s t) (k : Moves t u) : Moves s u := by
  induction k with
  | refl => exact h
  | step _ m ih => exact .step ih m

/-- What every elementary change keeps, every sequence keeps. -/
theorem Moves.keep {P : State → Prop} (hm : ∀ {s t : State}, Move s t → P s → P t) {s t : State}
    (h : Moves s t) (hs : P s) : P t := by
  induction h with
  | refl => exact hs
  | step _ m ih => exact hm m ih

/-- What every elementary change leaves equal, every sequence leaves equal. -/
theorem Moves.same {α : Type} {f : State → α} (hm : ∀ {s t : State}, Move s t → f t = f s) {s t : State}
    (h : Moves s t) : f t = f s := by
  induction h with
  | refl => rfl
  | step _ m ih => rw [hm m, ih]

/-! ### Registers -/

theorem moves_writePmcIntr (v : Word) (s : State) : Moves s (writePmcIntr v s) := by
  unfold writePmcIntr
  split
  · exact (Move.log s _ _ _ _).moves.step (.aggregate _ _)
  · exact (Move.aggregate s _).moves

theorem moves_writeStraps (a v : Word) (s : State) : Moves s (writeStraps a v s) := by
  unfold writeStraps
  split
  · exact (Move.straps s v).moves
  · exact (Move.log s _ _ _ _).moves

theorem moves_computedRead (r : ComputedReg) (s : State) : Moves s (computedRead r s).1 := by
  cases r
  case pmcIntr => exact (Move.readAggregate s).moves
  all_goals exact .refl s

theorem moves_computedWrite (r : ComputedReg) (a v : Word) (s : State) : Moves s (computedWrite r a v s) := by
  cases r with
  | pmcIntr => exact moves_writePmcIntr v s
  | pmcIntrEn => exact (Move.enable s v).moves
  | bankIntr b => exact (Move.pair s b _).moves
  | bankIntrEn b => exact (Move.pairEnable s b v).moves
  | timeLo => exact (Move.time s _).moves
  | timeHi => exact (Move.time s _).moves
  | alarmLo => exact (Move.alarm s _).moves
  | alarmHi => exact (Move.alarm s _).moves
  | straps => exact moves_writeStraps a v s
  | mpll => exact (Move.mpll s v).moves
  | vpll => exact (Move.vpll s v).moves.step (.event _ _)

theorem moves_entryRead (n : Width) (e : RegEntry) (s : State) : Moves s (entryRead n e s).1 := by
  refine Moves.step ?_ (Move.log _ _ _ _ _)
  unfold kindRead
  split
  · exact .refl s
  · exact .refl s
  · exact moves_computedRead _ s

theorem moves_entryWrite (n : Width) (e : RegEntry) (v : Word) (s : State) : Moves s (entryWrite n e v s) := by
  refine Moves.step ?_ (Move.log _ _ _ _ _)
  unfold kindWrite
  split
  · exact (Move.plain s _ _ _).moves
  · exact .refl s
  · exact moves_computedWrite _ _ _ s

theorem moves_bankRead (n : Width) (a : Word) (s : State) : Moves s (bankRead n a s).1 := by
  unfold bankRead
  split
  · exact (Move.log s _ _ _ _).moves
  · exact moves_entryRead n _ s

theorem moves_bankWrite (n : Width) (a v : Word) (s : State) : Moves s (bankWrite n a v s) := by
  unfold bankWrite
  split
  · exact (Move.log s _ _ _ _).moves
  · exact moves_entryWrite n _ v s

/-! ### PCI bytes and memories -/

theorem moves_cfgWrite (off v : Byte) (s : State) : Moves s (cfgWrite off v s) := by
  unfold cfgWrite
  split
  · exact .refl s
  · rename_i h
    exact (Move.pci s off v h).moves

theorem moves_mirrorWrite (o : Byte) (v : Word) (s : State) : Moves s (mirrorWrite o v s) :=
  (((moves_cfgWrite _ _ s).trans (moves_cfgWrite _ _ _)).trans (moves_cfgWrite _ _ _)).trans
    (moves_cfgWrite _ _ _)

theorem moves_memWrite (sp : Space) (off : Nat) (n : Width) (v : Word) (s : State) :
    Moves s (s.memWrite sp off n v) := by
  cases n with
  | b1 => exact (Move.byte s _ _ _).moves
  | b2 => exact (Move.byte s _ _ _).moves.step (.byte _ _ _ _)
  | b4 =>
    exact (((Move.byte s _ _ _).moves.step (.byte _ _ _ _)).step (.byte _ _ _ _)).step (.byte _ _ _ _)

/-! ### The arbiter and the shim -/

theorem moves_regionRead (r : Region) (n : Width) (a : Word) (s : State) : Moves s (regionRead r n a s).1 := by
  cases r with
  | bank b => exact moves_bankRead n a s
  | user => exact (Move.draw s).moves
  | pbusPci => exact .refl s
  | prom => exact .refl s
  | vram => exact .refl s
  | ramin => exact .refl s

theorem moves_regionWrite (r : Region) (n : Width) (a v : Word) (s : State) :
    Moves s (regionWrite r n a v s) := by
  cases r with
  | bank b => exact moves_bankWrite n a v s
  | user => exact (Move.event s _).moves
  | pbusPci =>
    unfold regionWrite
    dsimp only
    split
    · exact moves_cfgWrite _ _ s
    · exact moves_mirrorWrite _ v s
  | prom => exact .refl s
  | vram => exact moves_memWrite .vram _ _ v s
  | ramin => exact moves_memWrite .ramin _ _ v s

theorem moves_passRead (t : Word) (s : State) : Moves s (passRead t s).1 := by
  unfold passRead
  split
  · exact (Move.log s _ _ _ _).moves
  · exact (Move.log s _ _ _ _).moves
  · exact moves_regionRead _ _ _ s

theorem moves_passWrite (t v : Word) (s : State) : Moves s (passWrite t v s) := by
  unfold passWrite
  split
  · exact (Move.log s _ _ _ _).moves
  · exact (Move.log s _ _ _ _).moves
  · exact moves_regionWrite _ _ _ v s

theorem moves_rmaRead (off : Nat) (s : State) : Moves s (rmaRead off s).1 := by
  unfold rmaRead
  split
  · exact moves_passRead _ s
  · split <;> exact .refl s

theorem moves_rmaCommit (s : State) : Moves s (rmaCommit s) := by
  unfold rmaCommit
  dsimp only
  split
  · exact (moves_passWrite _ _ s).step (.rmaAddr _ _)
  · exact moves_passWrite _ _ s

theorem moves_rmaWriteAddr (k : Nat) (v : Byte) (s : State) : Moves s (rmaWriteAddr k v s) :=
  (Move.rmaAddr s _).moves

theorem moves_rmaWriteData (k : Nat) (v : Byte) (s : State) : Moves s (rmaWriteData k v s) := by
  unfold rmaWriteData
  split
  · exact (Move.rmaData s _).moves.trans (moves_rmaCommit _)
  · exact (Move.rmaData s _).moves

theorem moves_rmaWrite (off : Nat) (v : Byte) (s : State) : Moves s (rmaWrite off v s) := by
  unfold rmaWrite
  split
  · exact moves_rmaWriteAddr _ v s
  · exact moves_rmaWriteData _ v s

theorem moves_arbRead (a : Word) (s : State) : Moves s (arbRead a s).1 := by
  unfold arbRead
  split
  · exact moves_rmaRead _ s
  · exact (Move.log s _ _ _ _).moves
  · exact moves_regionRead _ _ _ s

theorem moves_arbWrite (a v : Word) (s : State) : Moves s (arbWrite a v s) := by
  unfold arbWrite
  split
  · exact moves_rmaWrite _ _ s
  · exact (Move.log s _ _ _ _).moves
  · exact moves_regionWrite _ _ _ v s

theorem moves_read8 (a : Word) (s : State) : Moves s (read8 a s).1 := by
  unfold read8; split <;> exact moves_arbRead a s

theorem moves_read16 (a : Word) (s : State) : Moves s (read16 a s).1 := by
  unfold read16; split <;> exact moves_arbRead a s

theorem moves_write8 (a : Word) (v : Byte) (s : State) : Moves s (write8 a v s) := by
  unfold write8
  split
  · exact moves_arbWrite _ _ s
  · exact (moves_arbRead a s).trans (moves_arbWrite _ _ _)

theorem moves_write16 (a : Word) (v : Half) (s : State) : Moves s (write16 a v s) := by
  unfold write16
  split
  · exact moves_arbWrite _ _ s
  · exact (moves_arbRead a s).trans (moves_arbWrite _ _ _)

theorem moves_portIn (port : Half) (s : State) : Moves s (portIn port s).1 := by
  unfold portIn
  split
  · exact moves_rmaRead _ s
  · exact (Move.draw s).moves

theorem moves_portOut (port : Half) (v : Byte) (s : State) : Moves s (portOut port v s) := by
  unfold portOut
  split
  · exact moves_rmaWrite _ v s
  · exact .refl s

/-! ### Timers -/

/-- The expiry of the pixel-clock timer changes nothing: an armed timer is armed again (rule R233). -/
theorem pclkExpiry_eq (s : State) : pclkExpiry s = s := by
  obtain ⟨⟩ := s
  rename_i pclk _ _ _ _ _ _ _ _ _ _ _ _ _ _ _ _ _
  obtain ⟨armed, period⟩ := pclk
  unfold pclkExpiry
  split
  · rename_i h; simp only at h; subst h; rfl
  · rfl

/-- The expiry of the memory-clock timer is a tick of PTIMER when it is armed (rule R234). -/
theorem mclkExpiry_eq (elapsed : Nat) (s : State) :
    mclkExpiry elapsed s = if s.mclk.armed then ptimerTick elapsed s else s := by
  unfold mclkExpiry
  split
  · rename_i h
    have : ({ s with mclk := { s.mclk with armed := true } } : State) = s := by
      obtain ⟨⟩ := s
      rename_i mclk _ _ _ _ _ _ _ _ _ _ _ _ _ _ _ _
      obtain ⟨armed, period⟩ := mclk
      simp only at h; subst h; rfl
    rw [this]
  · rfl

theorem moves_ptimerTick (elapsed : Nat) (s : State) : Moves s (ptimerTick elapsed s) := by
  unfold ptimerTick
  split
  · exact .refl s
  · dsimp only
    split
    · exact (Move.time s _).moves.step (.pair _ _ _)
    · exact (Move.time s _).moves

theorem moves_mclkExpiry (elapsed : Nat) (s : State) : Moves s (mclkExpiry elapsed s) := by
  rw [mclkExpiry_eq]
  split
  · exact moves_ptimerTick elapsed s
  · exact .refl s

/-! ### PGRAPH -/

theorem moves_pixel (g : Grobj) (x y : Nat) (src : Color) (s : State) : Moves s (pixel g x y src s) := by
  unfold pixel
  split
  · split
    · split
      · exact .refl s
      · exact moves_memWrite _ _ _ _ s
    · exact .refl s
  · exact .refl s

theorem moves_fillRow (g : Grobj) (x0 y : Nat) (src : Color) (w : Nat) (s : State) :
    Moves s (fillRow g x0 y src w s) := by
  induction w with
  | zero => exact .refl s
  | succ w ih => exact ih.trans (moves_pixel _ _ _ _ _)

theorem moves_fillRect (g : Grobj) (x0 y0 w : Nat) (src : Color) (h : Nat) (s : State) :
    Moves s (fillRect g x0 y0 w src h s) := by
  induction h with
  | zero => exact .refl s
  | succ h ih => exact ih.trans (moves_fillRow _ _ _ _ _ _)

theorem moves_runRequests (g : Grobj) (reqs : List Request) (s : State) : Moves s (runRequests g reqs s) := by
  induction reqs generalizing s with
  | nil => exact .refl s
  | cons r rest ih =>
    refine Moves.trans ?_ (ih _)
    cases r with
    | pix x y src => exact moves_pixel g x y src s
    | raw off n v => exact moves_memWrite _ _ _ _ s

theorem moves_betaHandler (c : MethodCall) (s : State) : Moves s (betaHandler c s) := by
  unfold betaHandler
  repeat' split
  all_goals first | exact (Move.rendering s _).moves | exact (Move.log s _ _ _ _).moves

theorem moves_ropHandler (c : MethodCall) (s : State) : Moves s (ropHandler c s) := by
  unfold ropHandler
  repeat' split
  all_goals first | exact (Move.rendering s _).moves | exact (Move.log s _ _ _ _).moves

theorem moves_chromaHandler (g : Grobj) (c : MethodCall) (s : State) : Moves s (chromaHandler g c s) := by
  unfold chromaHandler
  repeat' split
  all_goals first | exact (Move.rendering s _).moves | exact (Move.log s _ _ _ _).moves

theorem moves_planeHandler (c : MethodCall) (s : State) : Moves s (planeHandler c s) := by
  unfold planeHandler
  repeat' split
  all_goals first | exact (Move.rendering s _).moves | exact (Move.log s _ _ _ _).moves

theorem moves_clipHandler (c : MethodCall) (s : State) : Moves s (clipHandler c s) := by
  unfold clipHandler
  repeat' split
  all_goals first | exact (Move.rendering s _).moves | exact (Move.log s _ _ _ _).moves

theorem moves_patternHandler (g : Grobj) (c : MethodCall) (s : State) : Moves s (patternHandler g c s) := by
  unfold patternHandler
  repeat' split
  all_goals first | exact (Move.rendering s _).moves | exact (Move.log s _ _ _ _).moves

theorem moves_rectHandler (g : Grobj) (c : MethodCall) (s : State) : Moves s (rectHandler g c s) := by
  unfold rectHandler
  split
  · exact (Move.rendering s _).moves
  · split
    · exact (Move.rendering s _).moves
    · split
      · exact moves_fillRect _ _ _ _ _ _ s
      · exact (Move.log s _ _ _ _).moves

theorem moves_blackBox (k : RasterClass) (g : Grobj) (c : MethodCall) (s : State) : Moves s (blackBox k g c s) :=
  (Move.rendering s _).moves.trans (moves_runRequests _ _ _)

theorem moves_runHandler (h : Handler) (g : Grobj) (c : MethodCall) (s : State) :
    Moves s (runHandler h g c s) := by
  cases h with
  | beta => exact moves_betaHandler c s
  | rop => exact moves_ropHandler c s
  | chroma => exact moves_chromaHandler g c s
  | plane => exact moves_planeHandler c s
  | clip => exact moves_clipHandler c s
  | pattern => exact moves_patternHandler g c s
  | rect => exact moves_rectHandler g c s
  | raster k => exact moves_blackBox k g c s

theorem moves_notify (sub : Submission) (s : State) : Moves s (notify sub s) := by
  unfold notify
  split
  · exact .refl s
  · exact (Move.event s _).moves

theorem moves_genericMethod (sub : Submission) (s : State) : Moves s (genericMethod sub s) := by
  refine Moves.trans ?_ (moves_notify sub _)
  unfold genericHandler
  split
  · exact (Move.notifyCtx s _).moves
  · exact (Move.log s _ _ _ _).moves

theorem moves_classMethod (h : Handler) (sub : Submission) (s : State) : Moves s (classMethod h sub s) :=
  (moves_runHandler h _ _ s).trans (moves_notify sub _)

/-- A class with no handler: under policy `fatal` a record and the stop, else elementary changes. -/
theorem unknownClassMethod_cases (cls : Word) (sub : Submission) (s : State) :
    (s.cfg.1.unknownClassPolicy = .fatal ∧
      unknownClassMethod cls sub s = (s.addDiag .fatalClass cls sub.param .none).raiseFatal) ∨
    (s.cfg.1.unknownClassPolicy = .logNoop ∧ Moves s (unknownClassMethod cls sub s)) := by
  unfold unknownClassMethod
  cases h : s.cfg.1.unknownClassPolicy with
  | fatal => exact .inl ⟨rfl, rfl⟩
  | logNoop => exact .inr ⟨rfl, (Move.log s _ _ _ _).moves.trans (moves_notify sub _)⟩

/-- A method with an unknown class, in the configuration's widths: the one thing that can stop the block
(rules R264, R326). -/
def Stops (i : Instr) (s : State) : Prop :=
  s.cfg.1.unknownClassPolicy = .fatal ∧
  ((∃ cls sub, i = .method cls sub ∧ ¬ (narrowSub s.cfg.1 sub).m < s.cfg.1.tGeneric ∧
      handlerOf s.cfg.1.classTab (narrowClass s.cfg.1 cls) = none) ∨
    ∃ cls sub, i = .mUnknownClass cls sub)

/-- Everything an operation can do: RESET puts the block into its reset state; an unknown class under
policy `fatal` logs and stops it; anything else is a sequence of elementary changes. -/
theorem exec_cases {i : Instr} {s t : State} (h : exec i s = .next t) :
    (i = .reset ∧ t = resetState s) ∨
    (s.fatal = false ∧ i ≠ .reset ∧ Moves s t) ∨
    (s.fatal = false ∧ Stops i s ∧
      ∃ cls v, t = ((s.addDiag .fatalClass cls v .none).raiseFatal).answer .nothing) := by
  have key : ∀ {u : State} {r : Reply}, Moves s u → complete s u r = .next t → i ≠ .reset →
      (i = .reset ∧ t = resetState s) ∨ (s.fatal = false ∧ i ≠ .reset ∧ Moves s t) ∨
      (s.fatal = false ∧ Stops i s ∧
        ∃ cls v, t = ((s.addDiag .fatalClass cls v .none).raiseFatal).answer .nothing) := by
    intro u r hu hc hne
    unfold complete at hc
    split at hc
    · cases hc
    · rename_i hf
      cases hc
      exact .inr (.inl ⟨by simpa using hf, hne, hu.step (.answer _ _)⟩)
  have stop : ∀ {cls : Word} {sub : Submission}, (s.cfg.1.unknownClassPolicy = .fatal → Stops i s) →
      complete s (unknownClassMethod cls sub s) .nothing = .next t → i ≠ .reset →
      (i = .reset ∧ t = resetState s) ∨ (s.fatal = false ∧ i ≠ .reset ∧ Moves s t) ∨
      (s.fatal = false ∧ Stops i s ∧
        ∃ cls v, t = ((s.addDiag .fatalClass cls v .none).raiseFatal).answer .nothing) := by
    intro cls sub hst hc hne
    rcases unknownClassMethod_cases cls sub s with ⟨hp, heq⟩ | ⟨_, hm⟩
    · unfold complete at hc
      split at hc
      · cases hc
      · rename_i hf
        cases hc
        exact .inr (.inr ⟨by simpa using hf, hst hp, _, _, by rw [heq]⟩)
    · exact key hm hc hne
  cases i
  case reset => exact .inl ⟨rfl, by simpa [exec, execReset] using h.symm⟩
  case method cls sub =>
    unfold exec execMethod methodDispatch at h
    simp only at h
    split at h
    · exact key (moves_genericMethod _ s) h (by simp)
    · rename_i hg
      split at h
      · rename_i hn
        exact stop (fun hp => ⟨hp, .inl ⟨cls, sub, rfl, hg, hn⟩⟩) h (by simp)
      · exact key (moves_classMethod _ _ s) h (by simp)
  case mUnknownClass cls sub => exact stop (fun hp => ⟨hp, .inr ⟨cls, sub, rfl⟩⟩) h (by simp)
  case mrd8 a => exact key (moves_read8 a s) h (by simp)
  case mrd16 a => exact key (moves_read16 a s) h (by simp)
  case mrd32 a => exact key (moves_arbRead a s) h (by simp)
  case mwr8 a v => exact key (moves_write8 a v s) h (by simp)
  case mwr16 a v => exact key (moves_write16 a v s) h (by simp)
  case mwr32 a v => exact key (moves_arbWrite a v s) h (by simp)
  case iord8 p => exact key (moves_portIn p s) h (by simp)
  case iowr8 p v => exact key (moves_portOut p v s) h (by simp)
  case cfgrd8 fn off => exact key (.refl s) h (by simp)
  case cfgwr8 fn off v =>
    refine key (u := configOut fn off v s) ?_ h (by simp)
    unfold configOut; split; exacts [moves_cfgWrite off v s, .refl s]
  case lfbrd n off => exact key (.refl s) h (by simp)
  case lfbwr off d => exact key (moves_memWrite _ _ _ _ s) h (by simp)
  case tickPclk => exact key (u := pclkExpiry s) (by rw [pclkExpiry_eq]; exact .refl s) h (by simp)
  case tickMclk e => exact key (moves_mclkExpiry e s) h (by simp)
  case raise b bits => exact key (Move.pair s b _).moves h (by simp)
  case swiRaise => exact key (Move.aggregate s _).moves h (by simp)
  case rmaSetmode v => exact key (Move.rmaMode s v).moves h (by simp)
  case rangeNone a acc => cases acc <;> exact key (Move.log s _ _ _ _).moves h (by simp)
  case unimpl a acc => cases acc <;> exact key (Move.log s _ _ _ _).moves h (by simp)
  case rmaRdSig off => exact key (moves_rmaRead _ s) h (by simp)
  case rmaRdZero off => exact key (moves_rmaRead _ s) h (by simp)
  case rmaRdPass off => exact key (moves_rmaRead _ s) h (by simp)
  case rmaWrAddr off v => exact key (moves_rmaWriteAddr _ v s) h (by simp)
  case rmaWrData off v => exact key (moves_rmaWriteData _ v s) h (by simp)
  case mGeneric cls sub => exact key (moves_genericMethod _ s) h (by simp)
  case mBeta sub => exact key (moves_classMethod _ _ s) h (by simp)
  case mRop sub => exact key (moves_classMethod _ _ s) h (by simp)
  case mChroma sub => exact key (moves_classMethod _ _ s) h (by simp)
  case mPlane sub => exact key (moves_classMethod _ _ s) h (by simp)
  case mClip sub => exact key (moves_classMethod _ _ s) h (by simp)
  case mPattern sub => exact key (moves_classMethod _ _ s) h (by simp)
  case mRect sub => exact key (moves_classMethod _ _ s) h (by simp)
  case mPoint sub => exact key (moves_classMethod _ _ s) h (by simp)
  case mLine sub => exact key (moves_classMethod _ _ s) h (by simp)
  case mTri sub => exact key (moves_classMethod _ _ s) h (by simp)
  case mGditext sub => exact key (moves_classMethod _ _ s) h (by simp)
  case mM2mf sub => exact key (moves_classMethod _ _ s) h (by simp)
  case mSifm sub => exact key (moves_classMethod _ _ s) h (by simp)
  case mBlit sub => exact key (moves_classMethod _ _ s) h (by simp)
  case mImage sub => exact key (moves_classMethod _ _ s) h (by simp)
  all_goals
    rename_i acc
    cases acc
    first
    | exact key (moves_entryRead _ _ s) h (by simp)
    | exact key (moves_regionRead _ _ _ s) h (by simp)
    first
    | exact key (moves_entryWrite _ _ _ s) h (by simp)
    | exact key (moves_regionWrite _ _ _ _ s) h (by simp)

end Sys2Proof.Machine
end

