-- ==== Sys2Proof/Laws/Frames.lean ====
section
/-! SUPPORT. What no elementary change touches, what the arbiter leaves of the shim's registers, and that the
reply of the operation before is read by nothing. -/

namespace Sys2Proof.Machine

/-! ### What no elementary change touches -/

@[simp] theorem State.plainSet_fatal (s : State) (p : PlainReg) (a v : Word) : (s.plainSet p a v).fatal = s.fatal := by
  cases p <;> rfl

@[simp] theorem State.plainSet_cfg (s : State) (p : PlainReg) (a v : Word) : (s.plainSet p a v).cfg = s.cfg := by
  cases p <;> rfl

/-- No elementary change raises or clears the stop. -/
theorem Moves.fatal {s t : State} (h : Moves s t) : t.fatal = s.fatal := by
  refine Moves.same (f := State.fatal) (fun m => ?_) h
  cases m <;> simp [State.setIntr, State.setIntrEn, State.setPci]

/-- No elementary change writes the parameter record. -/
theorem Moves.cfg {s t : State} (h : Moves s t) : t.cfg = s.cfg := by
  refine Moves.same (f := State.cfg) (fun m => ?_) h
  cases m <;> simp [State.setIntr, State.setIntrEn, State.setPci]

/-! ### The shim's registers -/

/-- The shim's three registers as one value. -/
def State.shim (s : State) : Word × Word × Byte := (s.rmaAddr, s.rmaData, s.rmaMode)

@[simp] theorem State.plainSet_shim (s : State) (p : PlainReg) (a v : Word) : (s.plainSet p a v).shim = s.shim := by
  cases p <;> rfl

@[simp] theorem recompute_shim (b : Bool) (s : State) : (recompute b s).shim = s.shim := by
  simp [State.shim]

/-- A `Computed` register's read leaves the shim's registers. -/
theorem computedRead_shim (r : ComputedReg) (s : State) : (computedRead r s).1.shim = s.shim := by
  cases r <;> simp [computedRead]

/-- A `Computed` register's write leaves the shim's registers. -/
theorem computedWrite_shim (r : ComputedReg) (a v : Word) (s : State) : (computedWrite r a v s).shim = s.shim := by
  cases r
  case pmcIntr => simp only [computedWrite, writePmcIntr, recompute_shim]; split <;> rfl
  case straps => simp only [computedWrite, writeStraps]; split <;> rfl
  all_goals first
    | rfl
    | (simp only [computedWrite, writePmcIntrEn, writeBankIntr, writeBankIntrEn, recompute_shim]; rfl)

/-- An entry's read leaves the shim's registers. -/
theorem entryRead_shim (n : Width) (e : RegEntry) (s : State) : (entryRead n e s).1.shim = s.shim := by
  change (kindRead e s).1.shim = s.shim
  unfold kindRead
  split
  · rfl
  · rfl
  · exact computedRead_shim _ s

/-- An entry's write leaves the shim's registers. -/
theorem entryWrite_shim (n : Width) (e : RegEntry) (v : Word) (s : State) : (entryWrite n e v s).shim = s.shim := by
  change (kindWrite e _ s).shim = s.shim
  unfold kindWrite
  split
  · exact State.plainSet_shim s _ _ _
  · rfl
  · exact computedWrite_shim _ _ _ s

@[simp] theorem cfgWrite_shim (off v : Byte) (s : State) : (cfgWrite off v s).shim = s.shim := by
  unfold cfgWrite
  split <;> rfl

@[simp] theorem State.setByte_shim (s : State) (sp : Space) (off : Nat) (v : Byte) :
    (s.setByte sp off v).shim = s.shim := by
  cases sp <;> rfl

@[simp] theorem State.memWrite_shim (s : State) (sp : Space) (off : Nat) (n : Width) (v : Word) :
    (s.memWrite sp off n v).shim = s.shim := by
  cases n <;> simp [State.memWrite]

/-- A target's read leaves the shim's registers. -/
theorem regionRead_shim (r : Region) (n : Width) (a : Word) (s : State) : (regionRead r n a s).1.shim = s.shim := by
  cases r
  case bank b =>
    simp only [regionRead, bankRead]
    split
    · rfl
    · exact entryRead_shim n _ s
  all_goals rfl

/-- A target's write leaves the shim's registers. -/
theorem regionWrite_shim (r : Region) (n : Width) (a v : Word) (s : State) : (regionWrite r n a v s).shim = s.shim := by
  cases r
  case bank b =>
    simp only [regionWrite, bankWrite]
    split
    · rfl
    · exact entryWrite_shim n _ v s
  case pbusPci =>
    simp only [regionWrite]
    split <;> simp [mirrorWrite]
  all_goals simp [regionWrite, State.shim]

/-- A write that the shim proxies leaves its registers (rule R218: `Commit` advances the address itself). -/
theorem passWrite_shim (t v : Word) (s : State) : (passWrite t v s).shim = s.shim := by
  unfold passWrite
  split
  · rfl
  · rfl
  · exact regionWrite_shim _ _ _ v s

/-! ### The reply is read by nothing -/

theorem recompute_answer (b : Bool) (s : State) (r : Reply) : recompute b (s.answer r) = (recompute b s).answer r := by
  rw [recompute_eq, recompute_eq]
  rfl

theorem computedRead_answer (c : ComputedReg) (s : State) (r : Reply) :
    computedRead c (s.answer r) = ((computedRead c s).1.answer r, (computedRead c s).2) := by
  cases c
  case pmcIntr => simp only [computedRead, recompute_answer]; rfl
  all_goals rfl

theorem computedWrite_answer (c : ComputedReg) (a v : Word) (s : State) (r : Reply) :
    computedWrite c a v (s.answer r) = (computedWrite c a v s).answer r := by
  cases c
  case pmcIntr =>
    by_cases h : v &&& ~~~swBit ≠ 0 ∧ v &&& ~~~swBit &&& s.pmcIntr = 0
    · have h' : v &&& ~~~swBit ≠ 0 ∧ v &&& ~~~swBit &&& (s.answer r).pmcIntr = 0 := h
      simp only [computedWrite, writePmcIntr, if_pos h, if_pos h']
      rw [← recompute_answer]
      rfl
    · have h' : ¬ (v &&& ~~~swBit ≠ 0 ∧ v &&& ~~~swBit &&& (s.answer r).pmcIntr = 0) := h
      simp only [computedWrite, writePmcIntr, if_neg h, if_neg h']
      rw [← recompute_answer]
      rfl
  case straps =>
    by_cases h : s.cfg.1.strapOverwrite = true
    · have h' : (s.answer r).cfg.1.strapOverwrite = true := h
      simp only [computedWrite, writeStraps, if_pos h, if_pos h']
      rfl
    · have h' : ¬ (s.answer r).cfg.1.strapOverwrite = true := h
      simp only [computedWrite, writeStraps, if_neg h, if_neg h']
      rfl
  case pmcIntrEn => exact recompute_answer true { s with pmcIntrEn := v &&& enMask s.cfg.1 } r
  case bankIntr b => exact recompute_answer true (s.setIntr b (s.intrOf b &&& ~~~v)) r
  case bankIntrEn b => exact recompute_answer true (s.setIntrEn b v) r
  all_goals rfl

theorem entryRead_answer (n : Width) (e : RegEntry) (s : State) (r : Reply) :
    entryRead n e (s.answer r) = ((entryRead n e s).1.answer r, (entryRead n e s).2) := by
  have h : kindRead e (s.answer r) = ((kindRead e s).1.answer r, (kindRead e s).2) := by
    unfold kindRead
    split
    · rename_i p _; cases p <;> rfl
    · rfl
    · exact computedRead_answer _ s r
  unfold entryRead entryValue
  rw [h]
  rfl

theorem entryWrite_answer (n : Width) (e : RegEntry) (v : Word) (s : State) (r : Reply) :
    entryWrite n e v (s.answer r) = (entryWrite n e v s).answer r := by
  have h (w : Word) : kindWrite e w (s.answer r) = (kindWrite e w s).answer r := by
    unfold kindWrite
    split
    · rename_i p _; cases p <;> rfl
    · rfl
    · exact computedWrite_answer _ _ _ s r
  unfold entryWrite
  rw [h]
  rfl

theorem cfgWrite_answer (off v : Byte) (s : State) (r : Reply) :
    cfgWrite off v (s.answer r) = (cfgWrite off v s).answer r := by
  unfold cfgWrite
  split <;> rfl

theorem State.memWrite_answer (s : State) (sp : Space) (off : Nat) (n : Width) (v : Word) (r : Reply) :
    (s.answer r).memWrite sp off n v = (s.memWrite sp off n v).answer r := by
  cases n <;> cases sp <;> rfl

theorem regionWrite_answer (g : Region) (n : Width) (a v : Word) (s : State) (r : Reply) :
    regionWrite g n a v (s.answer r) = (regionWrite g n a v s).answer r := by
  cases g
  case bank b =>
    simp only [regionWrite, bankWrite, State.answer_cfg]
    split
    · rfl
    · exact entryWrite_answer n _ v s r
  case pbusPci =>
    simp only [regionWrite, State.answer_cfg, mirrorWrite, cfgWrite_answer]
    split <;> rfl
  case vram => exact State.memWrite_answer s .vram _ _ v r
  case ramin => exact State.memWrite_answer s .ramin _ _ v r
  all_goals rfl

theorem passWrite_answer (t v : Word) (s : State) (r : Reply) :
    passWrite t v (s.answer r) = (passWrite t v s).answer r := by
  simp only [passWrite, State.answer_cfg]
  split
  · rfl
  · rfl
  · exact regionWrite_answer _ _ _ v s r

end Sys2Proof.Machine
end

