-- ==== Sys2Proof/Laws/Operands.lean ====
section
/-! SUPPORT. What the operations on operands and on register cells do, said once: the widths of a method
tuple, the cells of `Plain` registers, one step. -/

namespace Sys2Proof.Machine

/-! ### Widths of a method tuple (rules R5, R94) -/

/-- The low `w` bits are the remainder by `2^w`. -/
theorem lowBits_toNat {w : Nat} (h : w ≤ 32) (v : Word) : (lowBits w v).toNat = v.toNat % 2 ^ w := by
  have hp : 2 ^ w ≤ 2 ^ 32 := Nat.pow_le_pow_right (by decide) h
  have h1 : 2 ^ w - 1 < 2 ^ 32 := by omega
  rw [lowBits, BitVec.toNat_and, BitVec.toNat_ofNat, Nat.mod_eq_of_lt h1, Nat.and_two_pow_sub_one_eq_mod]

/-- A configuration's four widths are at most 32 bits. -/
theorem widths_le (c : ValidCfg) :
    c.1.wMethod ≤ 32 ∧ c.1.wChan ≤ 32 ∧ c.1.wSubchan ≤ 32 ∧ c.1.wClass ≤ 32 := by
  have hv := c.2
  simp only [Cfg.valid, Cfg.scalarsOk, Bool.and_eq_true, decide_eq_true_eq] at hv
  tauto

@[simp] theorem narrowSub_ctx (c : Cfg) (sub : Submission) : (narrowSub c sub).ctx = sub.ctx := rfl
@[simp] theorem narrowSub_param (c : Cfg) (sub : Submission) : (narrowSub c sub).param = sub.param := rfl

/-- The method id taken in `W_METHOD` bits. -/
theorem narrowSub_m (c : ValidCfg) (sub : Submission) :
    (narrowSub c.1 sub).m.toNat = sub.m.toNat % 2 ^ c.1.wMethod := lowBits_toNat (widths_le c).1 _

/-- The class id taken in `W_CLASS` bits. -/
theorem narrowClass_toNat (c : ValidCfg) (cls : Word) :
    (narrowClass c.1 cls).toNat = cls.toNat % 2 ^ c.1.wClass := lowBits_toNat (widths_le c).2.2.2 _

/-! ### Cells of `Plain` registers (rules R24, R191) -/

/-- An added register's cell holds what was stored into it, and every other cell what it held. -/
theorem extraGet_extraSet (cells : List (Word × Word)) (a v b : Word) :
    extraGet (extraSet cells a v) b = if b = a then v else extraGet cells b := by
  induction cells with
  | nil => simp only [extraSet, extraGet, eq_comm]
  | cons x xs ih =>
    unfold extraSet
    split
    · rename_i h
      simp only [extraGet, h, eq_comm]
      split <;> rfl
    · rename_i h
      simp only [extraGet, ih]
      split
      · rename_i hb
        rw [if_neg (fun e => h (hb.trans e))]
      · rfl

/-- A `Plain` register's cell after a store into another one: a register is told from the others by its name,
or by its address where a configuration added it. -/
theorem State.plainGet_plainSet_other (s : State) (p q : PlainReg) (a b v : Word)
    (h : q ≠ p) (hab : b ≠ a) : (s.plainSet p a v).plainGet q b = s.plainGet q b := by
  cases p <;> cases q <;> first
    | exact absurd rfl h
    | rfl
    | skip
  case pal.pal k j =>
    have hk : j.toNat ≠ k.toNat := fun e => h (congrArg PlainReg.pal (BitVec.eq_of_toNat_eq e))
    simp only [State.plainGet, State.plainSet]
    rw [Vector.getElem_set_ne _ _ (fun e => hk e.symm)]
  case extra.extra => exact (extraGet_extraSet _ _ _ _).trans (if_neg hab)

/-! ### One step (rule R21) -/

/-- With no operation presented nothing happens. -/
theorem step_idle {s : State} (h : s.stream = []) : step s = .next s := by
  simp [step, State.nextFrame, h]

/-- A frame that decodes is run whole. -/
theorem step_runs {s : State} {f : OpFrame} {rest : List OpFrame} {i : Instr} (h : s.stream = f :: rest)
    (hd : decode f = .ok i) : step s = exec i s.taken := by
  simp [step, State.nextFrame, h, hd]

/-- A frame that presents no operation is passed over. -/
theorem step_passes {s : State} {f : OpFrame} {rest : List OpFrame} {e : DecodeError} (h : s.stream = f :: rest)
    (hd : decode f = .error e) : step s = .next s.passedOver := by
  simp [step, State.nextFrame, h, hd]

/-- Everything a step can do: nothing, one operation, or to pass over a frame that presents none. -/
theorem step_cases {s t : State} (h : step s = .next t) :
    (s.stream = [] ∧ t = s) ∨
    (∃ f rest i, s.stream = f :: rest ∧ decode f = .ok i ∧ exec i s.taken = .next t) ∨
    ∃ f rest e, s.stream = f :: rest ∧ decode f = .error e ∧ t = s.passedOver := by
  cases hs : s.stream with
  | nil => exact .inl ⟨rfl, by simpa [step_idle hs] using h.symm⟩
  | cons f rest =>
    cases hd : decode f with
    | ok i => exact .inr (.inl ⟨f, rest, i, rfl, hd, by rw [← step_runs hs hd, h]⟩)
    | error e => exact .inr (.inr ⟨f, rest, e, rfl, hd, by simpa [step_passes hs hd] using h.symm⟩)

end Sys2Proof.Machine
end

