-- ==== Sys2Proof/Laws/PerInstr.lean ====
section
/-! SUPPORT. Statements for all instructions, one lemma for each. `KeyWidth`: the key of an instruction's
encoding fits the width the opcode table gives its format (rules R90, R109). -/

namespace Sys2Proof.Laws

/-- A frame's key fits its format: one of the nineteen codes of rule R90, a 25-bit address, a 7-bit RMA key,
a 6-bit METHOD key (rule R109). -/
def keyFits (f : OpFrame) : Bool :=
  match f.fmt with
  | .op => decide (f.word % 256 < 19)
  | .range => decide (f.word % 2 ^ 32 < 2 ^ 25)
  | .reg => decide (f.word % 2 ^ 32 < 2 ^ 25)
  | .rma => decide (f.word % 256 < 128)
  | .method => decide (f.word % 256 < 64)

/-- The key of a well-formed instruction's encoding fits its format. -/
def KeyWidth.Statement (i : Instr) : Prop := wellFormed i = true → keyFits (encode i) = true

theorem keyFits_op (code operands : Nat) (h : code < 19) : keyFits (opFrame code operands) = true := by
  exact decide_eq_true (p := (code + 2 ^ 8 * operands) % 256 < 19) (by omega)

theorem keyFits_range (a : BitVec 25) (acc : Access) : keyFits (rangeFrame a acc) = true := by
  have := a.isLt
  exact decide_eq_true (p := (a.toNat + 2 ^ 32 * encAccess acc) % 2 ^ 32 < 2 ^ 25) (by omega)

theorem keyFits_reg (a : Nat) (acc : Access) (h : a < 2 ^ 25) : keyFits (regFrame a acc) = true := by
  exact decide_eq_true (p := (a + 2 ^ 32 * encAccess acc) % 2 ^ 32 < 2 ^ 25) (by omega)

theorem keyFits_rma (key v : Nat) (h : key < 128) : keyFits (rmaFrame key v) = true := by
  exact decide_eq_true (p := (key + 2 ^ 8 * v) % 256 < 128) (by omega)

theorem keyFits_class (cls : Nat) (s : Submission) (h : cls < 64) : keyFits (classFrame cls s) = true := by
  exact decide_eq_true (p := (cls + 2 ^ 8 * encSubmission keyTGeneric.toNat s) % 256 < 64) (by omega)

namespace KeyWidth

theorem mrd8 (a : Word) : Statement (.mrd8 a) := fun _ => keyFits_op _ _ (by decide)

theorem mrd16 (a : Word) : Statement (.mrd16 a) := fun _ => keyFits_op _ _ (by decide)

theorem mrd32 (a : Word) : Statement (.mrd32 a) := fun _ => keyFits_op _ _ (by decide)

theorem mwr8 (a : Word) (v : Byte) : Statement (.mwr8 a v) := fun _ => keyFits_op _ _ (by decide)

theorem mwr16 (a : Word) (v : Half) : Statement (.mwr16 a v) := fun _ => keyFits_op _ _ (by decide)

theorem mwr32 (a : Word) (v : Word) : Statement (.mwr32 a v) := fun _ => keyFits_op _ _ (by decide)

theorem iord8 (port : Half) : Statement (.iord8 port) := fun _ => keyFits_op _ _ (by decide)

theorem iowr8 (port : Half) (v : Byte) : Statement (.iowr8 port v) := fun _ => keyFits_op _ _ (by decide)

theorem cfgrd8 (fn : Byte) (off : Byte) : Statement (.cfgrd8 fn off) := fun _ => keyFits_op _ _ (by decide)

theorem cfgwr8 (fn : Byte) (off : Byte) (v : Byte) : Statement (.cfgwr8 fn off v) := fun _ => keyFits_op _ _ (by decide)

theorem lfbrd (n : Width) (off : Word) : Statement (.lfbrd n off) := by
  intro _
  cases n <;> exact keyFits_op _ _ (by decide)

theorem lfbwr (off : Word) (d : Datum) : Statement (.lfbwr off d) := by
  intro _
  cases d <;> exact keyFits_op _ _ (by decide)

theorem tickPclk : Statement .tickPclk := fun _ => keyFits_op _ _ (by decide)

theorem tickMclk (elapsed : Nat) : Statement (.tickMclk elapsed) := fun _ => keyFits_op _ _ (by decide)

theorem method (cls : Word) (sub : Submission) : Statement (.method cls sub) := fun _ => keyFits_op _ _ (by decide)

theorem raise (b : IntrBank) (bits : Word) : Statement (.raise b bits) := fun _ => keyFits_op _ _ (by decide)

theorem swiRaise : Statement .swiRaise := fun _ => keyFits_op _ _ (by decide)

theorem reset : Statement .reset := fun _ => keyFits_op _ _ (by decide)

theorem rmaSetmode (v : Byte) : Statement (.rmaSetmode v) := fun _ => keyFits_op _ _ (by decide)

theorem rangePmc (a : BitVec 25) (acc : Access) : Statement (.rangePmc a acc) := fun _ => keyFits_range a acc

theorem rangePbusPci (a : BitVec 25) (acc : Access) : Statement (.rangePbusPci a acc) := fun _ => keyFits_range a acc

theorem rangePbus (a : BitVec 25) (acc : Access) : Statement (.rangePbus a acc) := fun _ => keyFits_range a acc

theorem rangePfifo (a : BitVec 25) (acc : Access) : Statement (.rangePfifo a acc) := fun _ => keyFits_range a acc

theorem rangePtimer (a : BitVec 25) (acc : Access) : Statement (.rangePtimer a acc) := fun _ => keyFits_range a acc

theorem rangePfb (a : BitVec 25) (acc : Access) : Statement (.rangePfb a acc) := fun _ => keyFits_range a acc

theorem rangePstraps (a : BitVec 25) (acc : Access) : Statement (.rangePstraps a acc) := fun _ => keyFits_range a acc

theorem rangeProm (a : BitVec 25) (acc : Access) : Statement (.rangeProm a acc) := fun _ => keyFits_range a acc

theorem rangePme (a : BitVec 25) (acc : Access) : Statement (.rangePme a acc) := fun _ => keyFits_range a acc

theorem rangePgraph (a : BitVec 25) (acc : Access) : Statement (.rangePgraph a acc) := fun _ => keyFits_range a acc

theorem rangePvideo (a : BitVec 25) (acc : Access) : Statement (.rangePvideo a acc) := fun _ => keyFits_range a acc

theorem rangePramdac (a : BitVec 25) (acc : Access) : Statement (.rangePramdac a acc) := fun _ => keyFits_range a acc

theorem rangePramdacPalette (a : BitVec 25) (acc : Access) : Statement (.rangePramdacPalette a acc) := fun _ => keyFits_range a acc

theorem rangeVram (a : BitVec 25) (acc : Access) : Statement (.rangeVram a acc) := fun _ => keyFits_range a acc

theorem rangeUser (a : BitVec 25) (acc : Access) : Statement (.rangeUser a acc) := fun _ => keyFits_range a acc

theorem rangeRamin (a : BitVec 25) (acc : Access) : Statement (.rangeRamin a acc) := fun _ => keyFits_range a acc

theorem rangeNone (a : BitVec 25) (acc : Access) : Statement (.rangeNone a acc) := fun _ => keyFits_range a acc

theorem pmcBoot (acc : Access) : Statement (.pmcBoot acc) := fun _ => keyFits_reg _ acc (by decide)

theorem pmcIntr (acc : Access) : Statement (.pmcIntr acc) := fun _ => keyFits_reg _ acc (by decide)

theorem pmcIntrEn (acc : Access) : Statement (.pmcIntrEn acc) := fun _ => keyFits_reg _ acc (by decide)

theorem pmcEnable (acc : Access) : Statement (.pmcEnable acc) := fun _ => keyFits_reg _ acc (by decide)

theorem pbusIntr (acc : Access) : Statement (.pbusIntr acc) := fun _ => keyFits_reg _ acc (by decide)

theorem pbusIntrEn (acc : Access) : Statement (.pbusIntrEn acc) := fun _ => keyFits_reg _ acc (by decide)

theorem pfifoIntr (acc : Access) : Statement (.pfifoIntr acc) := fun _ => keyFits_reg _ acc (by decide)

theorem pfifoIntrEn (acc : Access) : Statement (.pfifoIntrEn acc) := fun _ => keyFits_reg _ acc (by decide)

theorem ptimerIntr (acc : Access) : Statement (.ptimerIntr acc) := fun _ => keyFits_reg _ acc (by decide)

theorem ptimerIntrEn (acc : Access) : Statement (.ptimerIntrEn acc) := fun _ => keyFits_reg _ acc (by decide)

theorem ptimerNumerator (acc : Access) : Statement (.ptimerNumerator acc) := fun _ => keyFits_reg _ acc (by decide)

theorem ptimerDenominator (acc : Access) : Statement (.ptimerDenominator acc) := fun _ => keyFits_reg _ acc (by decide)

theorem ptimerTimeLo (acc : Access) : Statement (.ptimerTimeLo acc) := fun _ => keyFits_reg _ acc (by decide)

theorem ptimerTimeHi (acc : Access) : Statement (.ptimerTimeHi acc) := fun _ => keyFits_reg _ acc (by decide)

theorem ptimerAlarmLo (acc : Access) : Statement (.ptimerAlarmLo acc) := fun _ => keyFits_reg _ acc (by decide)

theorem ptimerAlarmHi (acc : Access) : Statement (.ptimerAlarmHi acc) := fun _ => keyFits_reg _ acc (by decide)

theorem pstrapsStraps (acc : Access) : Statement (.pstrapsStraps acc) := fun _ => keyFits_reg _ acc (by decide)

theorem pmeIntr (acc : Access) : Statement (.pmeIntr acc) := fun _ => keyFits_reg _ acc (by decide)

theorem pmeIntrEn (acc : Access) : Statement (.pmeIntrEn acc) := fun _ => keyFits_reg _ acc (by decide)

theorem pgraphIntr (acc : Access) : Statement (.pgraphIntr acc) := fun _ => keyFits_reg _ acc (by decide)

theorem pgraphIntrEn (acc : Access) : Statement (.pgraphIntrEn acc) := fun _ => keyFits_reg _ acc (by decide)

theorem pvideoIntr (acc : Access) : Statement (.pvideoIntr acc) := fun _ => keyFits_reg _ acc (by decide)

theorem pvideoIntrEn (acc : Access) : Statement (.pvideoIntrEn acc) := fun _ => keyFits_reg _ acc (by decide)

theorem pramdacMpll (acc : Access) : Statement (.pramdacMpll acc) := fun _ => keyFits_reg _ acc (by decide)

theorem pramdacVpll (acc : Access) : Statement (.pramdacVpll acc) := fun _ => keyFits_reg _ acc (by decide)

theorem palByte0 (acc : Access) : Statement (.palByte0 acc) := fun _ => keyFits_reg _ acc (by decide)

theorem palByte1 (acc : Access) : Statement (.palByte1 acc) := fun _ => keyFits_reg _ acc (by decide)

theorem palByte2 (acc : Access) : Statement (.palByte2 acc) := fun _ => keyFits_reg _ acc (by decide)

theorem palByte3 (acc : Access) : Statement (.palByte3 acc) := fun _ => keyFits_reg _ acc (by decide)

theorem unimpl (a : BitVec 25) (acc : Access) : Statement (.unimpl a acc) := fun _ => keyFits_reg _ acc a.isLt

theorem rmaRdSig (off : BitVec 2) : Statement (.rmaRdSig off) := fun _ => keyFits_rma _ _ (by have := off.isLt; omega)

theorem rmaRdZero (off : BitVec 5) : Statement (.rmaRdZero off) := fun _ => keyFits_rma _ _ (by have := off.isLt; omega)

theorem rmaRdPass (off : BitVec 5) : Statement (.rmaRdPass off) := fun _ => keyFits_rma _ _ (by have := off.isLt; omega)

theorem rmaWrAddr (off : BitVec 2) (v : Byte) : Statement (.rmaWrAddr off v) := fun _ => keyFits_rma _ _ (by have := off.isLt; omega)

theorem rmaWrData (off : BitVec 5) (v : Byte) : Statement (.rmaWrData off v) := fun _ => keyFits_rma _ _ (by have := off.isLt; omega)

theorem mGeneric (cls : Word) (sub : Submission) : Statement (.mGeneric cls sub) := by
  intro h
  simp only [wellFormed, Bool.and_eq_true, decide_eq_true_eq] at h
  have : cls.toNat < 32 := h.2
  exact decide_eq_true (p := (0x20 + cls.toNat + 2 ^ 8 * encSubmission 0 sub) % 256 < 64) (by omega)

theorem mBeta (sub : Submission) : Statement (.mBeta sub) := fun _ => keyFits_class _ sub (by decide)

theorem mRop (sub : Submission) : Statement (.mRop sub) := fun _ => keyFits_class _ sub (by decide)

theorem mChroma (sub : Submission) : Statement (.mChroma sub) := fun _ => keyFits_class _ sub (by decide)

theorem mPlane (sub : Submission) : Statement (.mPlane sub) := fun _ => keyFits_class _ sub (by decide)

theorem mClip (sub : Submission) : Statement (.mClip sub) := fun _ => keyFits_class _ sub (by decide)

theorem mPattern (sub : Submission) : Statement (.mPattern sub) := fun _ => keyFits_class _ sub (by decide)

theorem mRect (sub : Submission) : Statement (.mRect sub) := fun _ => keyFits_class _ sub (by decide)

theorem mPoint (sub : Submission) : Statement (.mPoint sub) := fun _ => keyFits_class _ sub (by decide)

theorem mLine (sub : Submission) : Statement (.mLine sub) := fun _ => keyFits_class _ sub (by decide)

theorem mTri (sub : Submission) : Statement (.mTri sub) := fun _ => keyFits_class _ sub (by decide)

theorem mGditext (sub : Submission) : Statement (.mGditext sub) := fun _ => keyFits_class _ sub (by decide)

theorem mM2mf (sub : Submission) : Statement (.mM2mf sub) := fun _ => keyFits_class _ sub (by decide)

theorem mSifm (sub : Submission) : Statement (.mSifm sub) := fun _ => keyFits_class _ sub (by decide)

theorem mBlit (sub : Submission) : Statement (.mBlit sub) := fun _ => keyFits_class _ sub (by decide)

theorem mImage (sub : Submission) : Statement (.mImage sub) := fun _ => keyFits_class _ sub (by decide)

theorem mUnknownClass (cls : Word) (sub : Submission) : Statement (.mUnknownClass cls sub) := by
  intro h
  simp only [wellFormed, unknownClassId, Bool.and_eq_true, decide_eq_true_eq] at h
  have : cls.toNat < 32 := h.2.1
  exact keyFits_class _ sub (by omega)

end KeyWidth

end Sys2Proof.Laws
end

