-- ==== Sys2Proof/Laws/Windows.lean ====
section
/-! SUPPORT. What an access inside a byte window can do, said once for every target (rules R140, R144): a read
answers one byte, and a write depends on bits 7 to 0 of its value alone. -/

namespace Sys2Proof.Machine

/-- One byte of a word, zero above. -/
theorem wordOf_byte (b : Byte) : wordOf b 0 0 0 = b.setWidth 32 := by
  have h : wordOf b 0 0 0 = ((0 : BitVec 24) ++ b : Word) := rfl
  rw [h]
  apply BitVec.eq_of_toNat_eq
  rw [BitVec.toNat_append]
  simp
  omega

/-- The low part of a word is a byte. -/
theorem and_low_byte (v : Word) : v &&& 0xFF = (v.setWidth 8).setWidth 32 := by
  ext i hi
  simp
  interval_cases i <;> simp

/-- Words that agree in their low part have one low byte. -/
theorem byteOf_zero_of_low {x y : Word} (h : x &&& 0xFF = y &&& 0xFF) : byteOf x 0 = byteOf y 0 := by
  have e (w : Word) : byteOf w 0 = (w &&& 0xFF).setWidth 8 := by
    ext i hi
    simp [byteOf]
    interval_cases i <;> simp
  rw [e, e, h]

/-- An access of one byte reads one byte of a region (rule R140). -/
theorem regionRead_byte (r : Region) (a : Word) (s : State) : ∃ d : Byte, (regionRead r .b1 a s).2 = d.setWidth 32 := by
  cases r <;> simp only [regionRead, accessData, State.memRead]
  case bank b =>
    unfold bankRead
    split
    · exact ⟨0, rfl⟩
    · exact ⟨_, (entryData_byte _ _).trans (and_low_byte _)⟩
  all_goals first | exact ⟨_, and_low_byte _⟩ | exact ⟨_, wordOf_byte _⟩

/-- Inside a byte window an access is of one byte (rule R144). -/
theorem accessWidth_byte {c : Cfg} {a : Word} (h : c.inByteWindow (maskAddr c a) = true) : accessWidth c a = .b1 := by
  simp [accessWidth, h]

/-- Outside the byte windows it is of four, wherever the aligned address lies (rule R131). -/
theorem accessWidth_word {c : Cfg} {a : Word} (h : c.inByteWindow (maskAddr c a) = false) : accessWidth c a = .b4 := by
  simp [accessWidth, h]

/-- Inside a byte window a 32-bit read answers one byte, whatever target answers (rule R140). -/
theorem arbRead_byte {a : Word} {s : State} (h : s.cfg.1.inByteWindow (maskAddr s.cfg.1 a) = true) :
    ∃ d : Byte, (arbRead a s).2 = d.setWidth 32 := by
  unfold arbRead
  rw [accessWidth_byte h]
  split
  · exact ⟨_, rfl⟩
  · exact ⟨0, rfl⟩
  · exact regionRead_byte _ _ s

/-- A write of one byte of a region depends on bits 7 to 0 of the value (rule R144); a bank that holds no
register there logs the value as it is. -/
theorem regionWrite_byte (r : Region) {a : Word} {s : State} {x y : Word}
    (hb : ∀ b, r = .bank b → ∃ e ∈ s.cfg.1.rtab, e.addr = a) (hxy : x &&& 0xFF = y &&& 0xFF) :
    regionWrite r .b1 a x s = regionWrite r .b1 a y s := by
  cases r <;> simp only [regionWrite, accessData, if_true, State.memWrite, byteOf_zero_of_low hxy, hxy]
  obtain ⟨e, he, rfl⟩ := hb _ rfl
  simp only [bankWrite, findEntry_of_mem (rtab_ok s.cfg).2.1 he, entryWrite, entryData_byte, hxy]

end Sys2Proof.Machine
end

