-- ==== Sys2Proof/Tests/Slice0.lean ====
section
/-! SUPPORT. Tests: ill-formed operands and configurations are refused, every constructor's decoding is shown
by a word written out from the spec's encoding, one or two steps of each operation give what the spec's
worked examples and pseudocode give, and every statement's hypotheses are met by something concrete. -/

namespace Sys2Proof.Tests

section

-- each test is checked before the next is read: many kernel evaluations at once would each hold a thread
set_option Elab.async false

open Sys2Proof.Machine

/-! ### Helpers -/

/-- What a completed operation leaves, looked at through `f`. -/
def look {α : Type} (i : Instr) (s : State) (f : State → α) : Option α :=
  match exec i s with
  | .next t => some (f t)
  | .fault _ => none
  | .refused _ => none

/-- The operation completes. -/
def completes (i : Instr) (s : State) : Bool := (look i s (fun _ => ())).isSome

/-- The kinds of the records in `DIAG`. -/
def kinds (s : State) : List DiagKind := s.diag.map (fun d => d.kind)

/-- The state after reset. -/
def idle : State := State.reset

/-- A reset state under a configuration. -/
def under (c : ValidCfg) : State := State.initial c 0

/-- A bank's pair and the aggregate's enables, the aggregate itself not recomputed. -/
def pend (b : IntrBank) (intr intrEn pmcEn : Word) : State :=
  { (idle.setIntr b intr).setIntrEn b intrEn with pmcIntrEn := pmcEn }

/-- The shim's three registers. -/
def shim (addr data : Word) (mode : Byte) : State := { idle with rmaAddr := addr, rmaData := data, rmaMode := mode }

/-- A method submission. -/
def sub (m : Word) (param : Word) : Submission := { ch := 1, sc := 2, m := m, ctx := 0, param := param }

/-- An opaque colour. -/
def ink : Color := { a := 255, r := 1, g := 2, b := 3 }

/-! ### Configurations -/

theorem overwrite_valid : Cfg.valid { refCfgWith 25 with strapOverwrite := true, unknownClassPolicy := .logNoop } = true := by
  decide +kernel

/-- REFCFG-32 where straps take writes and an unknown class is logged only. -/
def lenient : ValidCfg := ⟨_, overwrite_valid⟩

theorem window_valid : Cfg.valid { refCfgWith 25 with
    rmaMmioWindow := some { lo := 0x500000, hi := 0x50001F }
    byteWindows := [{ lo := 0x6813C6, hi := 0x6813C9 }, { lo := 0x20C, hi := 0x20F }]
    rtab := refRtab ++
      [{ addr := 0x208, bank := .pmc, kind := .plain (.extra 0), mask := 0xFF, reset := 0x5A },
       { addr := 0x20D, bank := .pmc, kind := .plain (.extra 0), mask := 0x7FF, reset := 0 }] } = true := by
  decide +kernel

/-- REFCFG-32 with an RMA window in the MMIO space and two added `Plain` registers of one name, one of them in
a byte window. -/
def windowed : ValidCfg := ⟨_, window_valid⟩

theorem bytewise_valid : Cfg.valid { refCfgWith 25 with
    byteWindows := [{ lo := 0x6813C6, hi := 0x6813C9 }, { lo := 0x1800, hi := 0x1807 }, { lo := 0x9200, hi := 0x9203 },
      { lo := 0x140, hi := 0x143 }, { lo := 0x110003, hi := 0x110003 }, { lo := 0x1000010, hi := 0x1000013 },
      { lo := 0x1000020, hi := 0x1000021 }, { lo := 0x1FFFFFF, hi := 0x1FFFFFF }] } = true := by
  decide +kernel

/-- REFCFG-32 with byte windows over a part of the PCI mirror, of PROM, of VRAM and of RAMIN, over a `Plain` and
over a `Computed` register. -/
def bytewise : ValidCfg := ⟨_, bytewise_valid⟩

theorem other_valid : Cfg.valid { refCfgWith 25 with
    wMethod := 16, wChan := 0, wSubchan := 32, wClass := 6, crystalHz := 28636363 / 2
    classTab := refClassTab ++ [(0x21, .raster (.added 0))]
    methods := { refMethods with rectPoint := refMethods.rectPoint.set 7 0x0500 } } = true := by
  decide +kernel

/-- REFCFG-32 with other tuple widths, a crystal of half a hertz, an added handler and a RECT point id out of
the even spacing. -/
def other : ValidCfg := ⟨_, other_valid⟩

/-- Rule R71: a PCI mirror outside PBUS is refused. -/
theorem test_mirror_outside_pbus_refused :
    Cfg.valid { refCfgWith 25 with amap := refAmap.set 1 (amapEntry .pbusPci 0x4000 0x40FF) } = false := by
  decide +kernel

/-- REFCFG-32 with PBUS in two ranges, the second from `lo` on. -/
def splitPbus (lo : Word) : Cfg :=
  { refCfgWith 25 with
    amap := refAmap.flatMap fun e =>
      if e.region = .bank (.sub .pbus) then [amapEntry e.region 0x1000 0x187F, amapEntry e.region lo 0x1FFF] else [e] }

/-- Rules R6, R134: the mirror may straddle two adjacent PBUS ranges, and may not have an address between them. -/
theorem test_mirror_across_two_pbus_ranges :
    (splitPbus 0x1880).valid = true ∧ (splitPbus 0x1884).valid = false := by
  decide +kernel

/-- Rule R134: overlapping ranges are refused. -/
theorem test_overlapping_ranges_refused :
    Cfg.valid { refCfgWith 25 with amap := refAmap ++ [amapEntry .ramin 0x1FFFFFF 0x1FFFFFF] } = false := by
  decide +kernel

/-- Rules R133, R134: a range that holds no address overlaps none and is accepted, and nothing is found in it. -/
theorem test_empty_range_accepted :
    Cfg.valid { refCfgWith 25 with amap := refAmap.map (fun e => if e.region = .user then amapEntry .user 0xFFFFFF 0x800000 else e) } =
      true ∧
    findRegion [amapEntry .user 0xFFFFFF 0x800000] 0x900000 = none := by
  decide +kernel

/-- Rule R195: two entries at one address are refused. -/
theorem test_two_entries_at_one_address_refused :
    Cfg.valid { refCfgWith 25 with rtab := refRtab ++
      [{ addr := 0x200, bank := .pmc, kind := .plain (.extra 0), mask := 0xFFFFFFFF, reset := 0 }] } = false := by
  decide +kernel

/-- Rule R195: a misaligned entry outside a byte window is refused. -/
theorem test_misaligned_entry_refused :
    Cfg.valid { refCfgWith 25 with rtab := refRtab ++
      [{ addr := 0x302, bank := .pmc, kind := .plain (.extra 0), mask := 0xFFFFFFFF, reset := 0 }] } = false := by
  decide +kernel

/-- Rule R195: a missing named entry is refused. -/
theorem test_missing_entry_refused : Cfg.valid { refCfgWith 25 with rtab := refRtab.tail } = false := by
  decide +kernel

/-- Rule R8: two banks at one position, and position 31, are refused. -/
theorem test_bad_routing_refused :
    Cfg.valid { refCfgWith 25 with pmcBit := [(.pme, 4), (.pfifo, 4)] } = false ∧
    Cfg.valid { refCfgWith 25 with pmcBit := [(.pme, 31)] } = false := by
  decide +kernel

/-- Rules R5, R66, R211, R230: an address width, a size, a mode mask and a crystal that are none of the allowed
are refused. -/
theorem test_bad_scalars_refused :
    Cfg.valid (refCfgWith 23) = false ∧ Cfg.valid { refCfgWith 25 with vramSize := 0x300000 } = false ∧
    Cfg.valid { refCfgWith 25 with modeMax := 0x10 } = false ∧
    Cfg.valid { refCfgWith 25 with crystalHz := 1 / 2 } = false := by
  decide +kernel

/-! ### WellFormed: an ill-formed term for each check -/

/-- An address just outside its row is no operand of the row (rule R109). -/
theorem test_wf_range_refused :
    wellFormed (.rangePmc 0x1000 .read) = false ∧
    wellFormed (.rangePbusPci 0x17FC .read) = false ∧
    wellFormed (.rangePbus 0x1800 .read) = false ∧
    wellFormed (.rangePfifo 0x4000 .read) = false ∧
    wellFormed (.rangePtimer 0x8FFC .read) = false ∧
    wellFormed (.rangePfb 0x101000 .read) = false ∧
    wellFormed (.rangePstraps 0x102000 .read) = false ∧
    wellFormed (.rangeProm 0x120000 .read) = false ∧
    wellFormed (.rangePme 0x201000 .read) = false ∧
    wellFormed (.rangePgraph 0x402000 .read) = false ∧
    wellFormed (.rangePvideo 0x680300 .read) = false ∧
    wellFormed (.rangePramdac 0x6802FC .read) = false ∧
    wellFormed (.rangePramdacPalette 0x6813C5 .read) = false ∧
    wellFormed (.rangeVram 0x1800000 .read) = false ∧
    wellFormed (.rangeUser 0x1000000 .read) = false ∧
    wellFormed (.rangeRamin 0x1BFFFFC .read) = false ∧
    wellFormed (.rangeNone 0x0 .read) = false := by
  decide +kernel

/-- A register's own address, a misaligned address and an unmapped one are no operands of `UNIMPL` (rule R192). -/
theorem test_wf_unimpl_refused :
    wellFormed (.unimpl 0x200 .read) = false ∧ wellFormed (.unimpl 0x206 .read) = false ∧
    wellFormed (.unimpl 0x4000 .read) = false := by
  decide +kernel

/-- An offset below 4 is no operand of the rows for the offsets above (rule R109). -/
theorem test_wf_rma_refused :
    wellFormed (.rmaRdZero 3) = false ∧ wellFormed (.rmaWrData 3 0) = false := by
  decide +kernel

/-- A method id of the other range, or a class with a handler, is no operand of the row (rule R109). -/
theorem test_wf_method_refused :
    wellFormed (.mGeneric 0 (sub 0x105 0)) = false ∧
    wellFormed (.mBeta (sub 0x104 0)) = false ∧
    wellFormed (.mRop (sub 0x104 0)) = false ∧
    wellFormed (.mChroma (sub 0x104 0)) = false ∧
    wellFormed (.mPlane (sub 0x104 0)) = false ∧
    wellFormed (.mClip (sub 0x104 0)) = false ∧
    wellFormed (.mPattern (sub 0x104 0)) = false ∧
    wellFormed (.mRect (sub 0x104 0)) = false ∧
    wellFormed (.mPoint (sub 0x104 0)) = false ∧
    wellFormed (.mLine (sub 0x104 0)) = false ∧
    wellFormed (.mTri (sub 0x104 0)) = false ∧
    wellFormed (.mGditext (sub 0x104 0)) = false ∧
    wellFormed (.mM2mf (sub 0x104 0)) = false ∧
    wellFormed (.mSifm (sub 0x104 0)) = false ∧
    wellFormed (.mBlit (sub 0x104 0)) = false ∧
    wellFormed (.mImage (sub 0x104 0)) = false ∧
    wellFormed (.mUnknownClass 0x1F (sub 0x104 0)) = false ∧ wellFormed (.mBeta (sub 0x2000 0)) = false ∧
    wellFormed (.mGeneric 0x20 (sub 0x104 0)) = false ∧ wellFormed (.mUnknownClass 0x20 (sub 0x105 0)) = false ∧
    wellFormed (.mUnknownClass 0x07 (sub 0x105 0)) = false := by
  decide +kernel

/-! ### Decode: a word of every constructor

Rule R90's code or rule R109's key stands in the lowest byte or the lowest 32 bits; the operands above it are
written as their own hexadecimal groups. -/

/-- A word of a format. -/
def reads (f : Fmt) (w : Nat) (i : Instr) : Bool :=
  match decode { fmt := f, word := w } with
  | .ok j => decide (j = i)
  | .error _ => false

/-- Codes 0 to 18 of rule R90. -/
theorem test_decode_operations :
    reads .op 0x00000101_00 (.mrd8 0x101) ∧ reads .op 0x00000102_01 (.mrd16 0x102) ∧
    reads .op 0xFFFFFFFC_02 (.mrd32 0xFFFFFFFC) ∧ reads .op 0xAB_00000201_03 (.mwr8 0x201 0xAB) ∧
    reads .op 0xCDEF_00000203_04 (.mwr16 0x203 0xCDEF) ∧
    reads .op 0x11223344_00000200_05 (.mwr32 0x200 0x11223344) ∧ reads .op 0x03D3_06 (.iord8 0x3D3) ∧
    reads .op 0x7F_03D0_07 (.iowr8 0x3D0 0x7F) ∧ reads .op 0x13_07_08 (.cfgrd8 7 0x13) ∧
    reads .op 0x02_04_00_09 (.cfgwr8 0 0x04 0x02) ∧ reads .op 0x00_00400000_0A (.lfbrd .b1 0x400000) ∧
    reads .op 0x01_00400000_0A (.lfbrd .b2 0x400000) ∧ reads .op 0x02_00400000_0A (.lfbrd .b4 0x400000) ∧
    reads .op 0xAA_00_00000010_0B (.lfbwr 0x10 (.d1 0xAA)) ∧
    reads .op 0xAABB_01_00000010_0B (.lfbwr 0x10 (.d2 0xAABB)) ∧
    reads .op 0xAABBCCDD_02_00000010_0B (.lfbwr 0x10 (.d4 0xAABBCCDD)) ∧ reads .op 0x0C .tickPclk ∧
    reads .op 0x123456789ABCDEF01234_0D (.tickMclk 0x123456789ABCDEF01234) ∧
    reads .op 0x89ABCDEF_ABCDEF1_00000304_00000005_00000055_00000007_0E
      (.method 0x07 { ch := 0x55, sc := 5, m := 0x304, ctx := 0xABCDEF1, param := 0x89ABCDEF }) ∧
    reads .op 0x00000001_08_0F (.raise .pgraph 1) ∧ reads .op 0x10 .swiRaise ∧ reads .op 0x11 .reset ∧
    reads .op 0x0B_12 (.rmaSetmode 0x0B) := by
  decide +kernel

/-- The bank codes of `RAISE`. -/
theorem test_decode_raise_banks :
    reads .op 0x80000000_00_0F (.raise .pbus 0x80000000) ∧ reads .op 0x1_01_0F (.raise .pfifo 1) ∧
    reads .op 0x1_02_0F (.raise .ptimer 1) ∧ reads .op 0x1_03_0F (.raise .pfb 1) ∧
    reads .op 0x1_04_0F (.raise .pstraps 1) ∧ reads .op 0x1_05_0F (.raise .pme 1) ∧
    reads .op 0x1_06_0F (.raise .pvideo 1) ∧ reads .op 0x1_07_0F (.raise .pramdac 1) := by
  decide +kernel

/-- The seventeen RANGE rows, at an end of each row's range. -/
theorem test_decode_ranges :
    reads .range 0xCAFEF00D_01_00000FFC (.rangePmc 0x00000FFC (.write 0xCAFEF00D)) ∧
    reads .range 0xCAFEF00D_01_00001800 (.rangePbusPci 0x00001800 (.write 0xCAFEF00D)) ∧
    reads .range 0xCAFEF00D_01_00001FFC (.rangePbus 0x00001FFC (.write 0xCAFEF00D)) ∧
    reads .range 0xCAFEF00D_01_00003FFC (.rangePfifo 0x00003FFC (.write 0xCAFEF00D)) ∧
    reads .range 0xCAFEF00D_01_00009000 (.rangePtimer 0x00009000 (.write 0xCAFEF00D)) ∧
    reads .range 0xCAFEF00D_01_00100000 (.rangePfb 0x00100000 (.write 0xCAFEF00D)) ∧
    reads .range 0xCAFEF00D_01_00101FFC (.rangePstraps 0x00101FFC (.write 0xCAFEF00D)) ∧
    reads .range 0xCAFEF00D_01_00110000 (.rangeProm 0x00110000 (.write 0xCAFEF00D)) ∧
    reads .range 0xCAFEF00D_01_00200FFC (.rangePme 0x00200FFC (.write 0xCAFEF00D)) ∧
    reads .range 0xCAFEF00D_01_00401FFC (.rangePgraph 0x00401FFC (.write 0xCAFEF00D)) ∧
    reads .range 0xCAFEF00D_01_006802FC (.rangePvideo 0x006802FC (.write 0xCAFEF00D)) ∧
    reads .range 0xCAFEF00D_01_00680300 (.rangePramdac 0x00680300 (.write 0xCAFEF00D)) ∧
    reads .range 0xCAFEF00D_01_006813C9 (.rangePramdacPalette 0x006813C9 (.write 0xCAFEF00D)) ∧
    reads .range 0xCAFEF00D_01_017FFFFC (.rangeVram 0x017FFFFC (.write 0xCAFEF00D)) ∧
    reads .range 0xCAFEF00D_01_00FFFFFC (.rangeUser 0x00FFFFFC (.write 0xCAFEF00D)) ∧
    reads .range 0xCAFEF00D_01_01FFFFFC (.rangeRamin 0x01FFFFFC (.write 0xCAFEF00D)) ∧
    reads .range 0xCAFEF00D_01_00004000 (.rangeNone 0x00004000 (.write 0xCAFEF00D)) := by
  decide +kernel

/-- The REG rows, each at its register's address, and an address of a bank that names no register. -/
theorem test_decode_registers :
    reads .reg 0x00000000 (.pmcBoot .read) ∧
    reads .reg 0x00000100 (.pmcIntr .read) ∧
    reads .reg 0x00000140 (.pmcIntrEn .read) ∧
    reads .reg 0x00000200 (.pmcEnable .read) ∧
    reads .reg 0x00001100 (.pbusIntr .read) ∧
    reads .reg 0x00001140 (.pbusIntrEn .read) ∧
    reads .reg 0x00002100 (.pfifoIntr .read) ∧
    reads .reg 0x00002140 (.pfifoIntrEn .read) ∧
    reads .reg 0x00009100 (.ptimerIntr .read) ∧
    reads .reg 0x00009140 (.ptimerIntrEn .read) ∧
    reads .reg 0x00009200 (.ptimerNumerator .read) ∧
    reads .reg 0x00009210 (.ptimerDenominator .read) ∧
    reads .reg 0x00009400 (.ptimerTimeLo .read) ∧
    reads .reg 0x00009410 (.ptimerTimeHi .read) ∧
    reads .reg 0x00009420 (.ptimerAlarmLo .read) ∧
    reads .reg 0x00009430 (.ptimerAlarmHi .read) ∧
    reads .reg 0x00101000 (.pstrapsStraps .read) ∧
    reads .reg 0x00200100 (.pmeIntr .read) ∧
    reads .reg 0x00200140 (.pmeIntrEn .read) ∧
    reads .reg 0x00400100 (.pgraphIntr .read) ∧
    reads .reg 0x00400140 (.pgraphIntrEn .read) ∧
    reads .reg 0x00680100 (.pvideoIntr .read) ∧
    reads .reg 0x00680140 (.pvideoIntrEn .read) ∧
    reads .reg 0x00680504 (.pramdacMpll .read) ∧
    reads .reg 0x00680508 (.pramdacVpll .read) ∧
    reads .reg 0x006813C6 (.palByte0 .read) ∧
    reads .reg 0x006813C7 (.palByte1 .read) ∧
    reads .reg 0x006813C8 (.palByte2 .read) ∧
    reads .reg 0x006813C9 (.palByte3 .read) ∧
    reads .reg 0x00000005_01_00000204 (.unimpl 0x204 (.write 5)) := by
  decide +kernel

/-- The RMA rows: bit 6 the direction, bit 5 `mode[0]`, bits 4 to 0 the offset. -/
theorem test_decode_rma :
    reads .rma 0b0000011 (.rmaRdSig 3) ∧ reads .rma 0b0000100 (.rmaRdZero 4) ∧ reads .rma 0b0111111 (.rmaRdPass 31) ∧
    reads .rma 0xDE_42 (.rmaWrAddr 2 0xDE) ∧ reads .rma 0xDE_47 (.rmaWrData 7 0xDE) := by
  decide +kernel

/-- The METHOD rows: bit 5 says that the id lies below `T_GENERIC`, bits 4 to 0 are the class id. -/
theorem test_decode_methods :
    reads .method 0x00000009_0000000_00000100_00000000_00000000_20
      (.mGeneric 0 { ch := 0, sc := 0, m := 0x100, ctx := 0, param := 9 }) ∧
    reads .method 0x01 (.mBeta { ch := 0, sc := 0, m := 0x105, ctx := 0, param := 0 }) ∧
    reads .method 0x02 (.mRop { ch := 0, sc := 0, m := 0x105, ctx := 0, param := 0 }) ∧
    reads .method 0x03 (.mChroma { ch := 0, sc := 0, m := 0x105, ctx := 0, param := 0 }) ∧
    reads .method 0x04 (.mPlane { ch := 0, sc := 0, m := 0x105, ctx := 0, param := 0 }) ∧
    reads .method 0x05 (.mClip { ch := 0, sc := 0, m := 0x105, ctx := 0, param := 0 }) ∧
    reads .method 0x06 (.mPattern { ch := 0, sc := 0, m := 0x105, ctx := 0, param := 0 }) ∧
    reads .method 0x07 (.mRect { ch := 0, sc := 0, m := 0x105, ctx := 0, param := 0 }) ∧
    reads .method 0x08 (.mPoint { ch := 0, sc := 0, m := 0x105, ctx := 0, param := 0 }) ∧
    reads .method 0x09 (.mLine { ch := 0, sc := 0, m := 0x105, ctx := 0, param := 0 }) ∧
    reads .method 0x0B (.mTri { ch := 0, sc := 0, m := 0x105, ctx := 0, param := 0 }) ∧
    reads .method 0x0C (.mGditext { ch := 0, sc := 0, m := 0x105, ctx := 0, param := 0 }) ∧
    reads .method 0x0D (.mM2mf { ch := 0, sc := 0, m := 0x105, ctx := 0, param := 0 }) ∧
    reads .method 0x0E (.mSifm { ch := 0, sc := 0, m := 0x105, ctx := 0, param := 0 }) ∧
    reads .method 0x10 (.mBlit { ch := 0, sc := 0, m := 0x105, ctx := 0, param := 0 }) ∧
    reads .method 0x11 (.mImage { ch := 0, sc := 0, m := 0x105, ctx := 0, param := 0 }) ∧
    reads .method 0x1F (.mUnknownClass 0x1F { ch := 0, sc := 0, m := 0x105, ctx := 0, param := 0 }) := by
  decide +kernel

/-- Keys outside the tables, a bank code that is none, and a set bit above the last operand are refused by name. -/
theorem test_decode_refuses :
    decode { fmt := .op, word := 0x13 } = .error .reservedKey ∧
    decode { fmt := .op, word := 0x0000_0F + 2 ^ 8 * 9 } = .error .badOperand ∧
    decode { fmt := .op, word := 0x10C } = .error .excessBits ∧
    decode { fmt := .range, word := 2 ^ 25 } = .error .reservedKey ∧
    decode { fmt := .reg, word := 0x4000 } = .error .reservedKey ∧
    decode { fmt := .rma, word := 0x80 } = .error .reservedKey ∧
    decode { fmt := .method, word := 0x40 } = .error .reservedKey := by
  decide +kernel

/-- A word of the opcode table presented to the block runs as its first operation. -/
theorem test_first_operation_after_reset :
    (match step (idle.withFetchWord 32 0) with
     | .next t => some t.reply
     | .fault _ => none
     | .refused _ => none) = some (.u32 0x00030100) := by
  decide +kernel

/-- Rules R72 and R90: a frame that presents no operation is passed over, and the next one is still there. -/
theorem test_no_operation_is_passed_over :
    (match step { idle with stream := [{ fmt := .op, word := 0x13 }, { fmt := .op, word := 0x10 }] } with
     | .next t => some (t.stream, t.seq, t.pmcIntr)
     | .fault _ => none
     | .refused _ => none) = some ([{ fmt := .op, word := 0x10 }], 0, 0) := by
  decide +kernel

/-! ### Steps: MMIO operations -/

/-- Rule R140's worked examples: `PMC_BOOT` read at 0 and at 3; 0x004000 soft-fails. -/
theorem test_mrd32 :
    look (.mrd32 0x3) idle (fun t => t.reply) = some (.u32 0x00030100) ∧
    look (.mrd32 0x4000) idle (fun t => (t.reply, kinds t)) = some (.u32 0, [.unmapped]) := by
  decide +kernel

/-- Rule R142's worked example: `MRD8 0x000002` returns 0x03. -/
theorem test_mrd8 : look (.mrd8 0x2) idle (fun t => t.reply) = some (.u8 0x03) := by decide +kernel

/-- Rule R142's worked examples: `MRD16 0x000002` returns 0x0003 and `MRD16 0x000003` returns 0x0000. -/
theorem test_mrd16 :
    look (.mrd16 0x2) idle (fun t => t.reply) = some (.u16 0x0003) ∧
    look (.mrd16 0x3) idle (fun t => t.reply) = some (.u16 0x0000) := by
  decide +kernel

/-- Rule R143's worked example: `MWR8 0x000201, 0xAB` over 0x11111111. -/
theorem test_mwr8 :
    look (.mwr8 0x201 0xAB) { idle with pmcEnable := 0x11111111 } (fun t => t.pmcEnable) = some 0x1111AB11 := by
  decide +kernel

/-- Rule R143's worked example: `MWR16 0x000203, 0xCDEF` changes bits 31 to 24 only. -/
theorem test_mwr16 :
    look (.mwr16 0x203 0xCDEF) { idle with pmcEnable := 0x1111AB11 } (fun t => t.pmcEnable) = some 0xEF11AB11 := by
  decide +kernel

/-- Rule R141's worked example, and rule R131's: 0x6813CA is aligned into the palette window. -/
theorem test_mwr32 :
    look (.mwr32 0x200 0x11111111) idle (fun t => t.pmcEnable) = some 0x11111111 ∧
    look (.mwr32 0x6813CA 0x12345678) idle (fun t => t.pal[2]) = some 0x78 := by
  decide +kernel

/-! ### Steps: ports -/

/-- Rule R214: with no transaction in flight the third port shows the third signature byte. -/
theorem test_iord8 :
    look (.iord8 0x3D2) idle (fun t => t.reply) = some (.u8 0x16) ∧
    look (.iord8 0x3D1) (shim 0 0 0x01) (fun t => t.reply) = some (.u8 0x01) := by
  decide +kernel

/-- Rules R216 to R218: an address lane; data lane 3 with mode 0x0B commits and advances the address by 4. -/
theorem test_iowr8 :
    look (.iowr8 0x3D1 0x02) (shim 0x00000100 0 0x01) (fun t => t.rmaAddr) = some 0x00000200 ∧
    look (.iowr8 0x3D3 0xDE) (shim 0x200 0x00ADBEEF 0x0B) (fun t => (t.pmcEnable, t.rmaAddr)) =
      some (0xDEADBEEF, 0x204) := by
  decide +kernel

/-- Rule R212: the mode is stored and the accumulators keep their contents. -/
theorem test_rmaSetmode :
    look (.rmaSetmode 0x03) (shim 0x11 0x22 0x01) (fun t => (t.rmaAddr, t.rmaData, t.rmaMode)) =
      some (0x11, 0x22, 0x03) := by
  decide +kernel

/-- Rules R214 to R218 for the RMA rows, and rule R221: the record has `t`, and `RMA.addr`. -/
theorem test_rma_rows :
    look (.rmaRdSig 1) idle (fun t => t.reply) = some (.u8 0xD0) ∧
    look (.rmaRdZero 31) idle (fun t => t.reply) = some (.u8 0) ∧
    look (.rmaRdPass 2) (shim 0 0 0x01) (fun t => t.reply) = some (.u8 0x03) ∧
    look (.rmaWrAddr 3 0x80) idle (fun t => t.rmaAddr) = some 0x80000000 ∧
    look (.rmaWrData 5 0x12) idle (fun t => t.rmaData) = some 0x00001200 ∧
    look (.rmaRdPass 2) { under windowed with rmaAddr := 0x500003, rmaMode := 1 } (fun t => t.diag) =
      some [{ kind := .unmapped, addr := 0x500000, value := 0, name := .none }] ∧
    look (.rmaWrData 7 0x12) { under windowed with rmaAddr := 0x500003 } (fun t => t.diag) =
      some [{ kind := .unmapped, addr := 0x500003, value := 0x12000000, name := .none }] := by
  decide +kernel

/-! ### Steps: PCI configuration and the linear framebuffer -/

/-- Rules R300, R301: the low byte of the vendor id, and function 1 reads as absent. -/
theorem test_cfgrd8 :
    look (.cfgrd8 0 0x00) idle (fun t => t.reply) = some (.u8 0xD2) ∧
    look (.cfgrd8 1 0x00) idle (fun t => t.reply) = some (.u8 0xFF) := by
  decide +kernel

/-- Rule R302: of BAR0 for a 32 MB window bit 25 is the lowest that holds; the ids take no write. -/
theorem test_cfgwr8 :
    look (.cfgwr8 0 0x13 0xFF) idle (fun t => t.pciByte 0x13) = some 0xFE ∧
    look (.cfgwr8 0 0x02 0xFF) idle (fun t => t.pciByte 0x02) = some 0x18 := by
  decide +kernel

/-- Rule R308: bytes are little-endian and offsets wrap at the size of VRAM. -/
theorem test_lfbwr :
    look (.lfbwr 0x3FFFFF (.d2 0xBBAA)) idle (fun t => t.vram) = some [(0, 0xBB), (0x3FFFFF, 0xAA)] := by
  decide +kernel

/-- Rule R308: a two-byte read across the end of VRAM. -/
theorem test_lfbrd :
    look (.lfbrd .b2 0x3FFFFF) { idle with vram := [(0, 0xBB), (0x3FFFFF, 0xAA)] } (fun t => t.reply) =
      some (.u16 0xBBAA) := by
  decide +kernel

/-! ### Steps: timers, raises, reset -/

/-- Rule R233: the pixel-clock expiry has no effect. -/
theorem test_tickPclk : look .tickPclk { idle with ptimerNum := 1, ptimerDen := 1 } (fun t => (t.ptimerTime, kinds t)) =
    some (0, []) := by
  decide +kernel

/-- Rule R243: `floor(1000 * 2 / 3)` is added, and the alarm at 666 is reached; with a zero denominator nothing
happens (rule R244). -/
theorem test_tickMclk :
    look (.tickMclk 1000) { idle with mclk := { armed := true, period := 1 }, ptimerNum := 2, ptimerDen := 3, ptimerAlarm := 666 }
      (fun t => (t.ptimerTime, t.intrOf .ptimer)) = some (666, 1) ∧
    look (.tickMclk 1000) { idle with mclk := { armed := true, period := 1 }, ptimerNum := 2 }
      (fun t => (t.ptimerTime, t.intrOf .ptimer)) = some (0, 0) := by
  decide +kernel

/-- Rule R180: PTIMER alone shows bit 20, and the line is high with the hardware-origin enable. -/
theorem test_raise :
    look (.raise .ptimer 1) (pend .ptimer 0 1 1) (fun t => (t.pmcIntr, t.irqLine)) = some (0x00100000, true) ∧
    look (.raise .ptimer 1) (pend .ptimer 0 1 2) (fun t => (t.irqLine, kinds t)) = some (false, [.irqSuppressed]) := by
  decide +kernel

/-- Rule R179's worked example. -/
theorem test_swiRaise :
    look .swiRaise { idle with pmcIntrEn := 2 } (fun t => (t.pmcIntr, t.irqLine)) = some (0x80000000, true) := by
  decide +kernel

/-- Rule R350: RESET clears the stop and the pending bits. -/
theorem test_reset :
    look .reset { pend .pme 7 7 3 with fatal := true } (fun t => (t.fatal, t.intrOf .pme, t.pmcIntrEn)) =
      some (false, 0, 0) := by
  decide +kernel

/-! ### Steps: targets -/

/-- The bank rows reach the register at the address (rule R190); PFB holds none (rule R192). -/
theorem test_bank_rows :
    look (.rangePmc 0 .read) idle (fun t => t.reply) = some (.u32 0x00030100) ∧
    look (.rangePbus 0x1140 (.write 5)) idle (fun t => t.intrEnOf .pbus) = some 5 ∧
    look (.rangePfifo 0x2140 (.write 5)) idle (fun t => t.intrEnOf .pfifo) = some 5 ∧
    look (.rangePtimer 0x9200 (.write 5)) idle (fun t => t.ptimerNum) = some 5 ∧
    look (.rangePfb 0x100000 (.write 5)) idle kinds = some [.unimplReg] ∧
    look (.rangePstraps 0x101000 (.write 5)) idle kinds = some [.anomalyStraps, .access] ∧
    look (.rangePme 0x200140 (.write 5)) idle (fun t => t.intrEnOf .pme) = some 5 ∧
    look (.rangePgraph 0x400140 (.write 5)) idle (fun t => t.intrEnOf .pgraph) = some 5 ∧
    look (.rangePvideo 0x680140 (.write 5)) idle (fun t => t.intrEnOf .pvideo) = some 5 ∧
    look (.rangePramdac 0x680508 (.write 5)) idle (fun t => t.vpll) = some 5 ∧
    look (.rangePramdacPalette 0x6813C9 (.write 0x105)) idle (fun t => t.pal[3]) = some 5 := by
  decide +kernel

/-- Rules R145 to R151 and R306: the targets that are not banks. -/
theorem test_memory_rows :
    look (.rangePbusPci 0x1800 .read) idle (fun t => t.reply) = some (.u32 0x001812D2) ∧
    look (.rangeProm 0x110000 (.write 5)) idle (fun t => (t.reply, kinds t)) = some (.nothing, []) ∧
    look (.rangeVram 0x1000010 (.write 0x11223344)) idle (fun t => t.vram) =
      some [(0x10, 0x44), (0x11, 0x33), (0x12, 0x22), (0x13, 0x11)] ∧
    look (.rangeRamin 0x1C00004 .read) { idle with ramin := [(4, 1), (5, 2), (6, 3), (7, 4)] } (fun t => t.reply) =
      some (.u32 0x04030201) ∧
    look (.rangeUser 0x800010 (.write 9)) idle (fun t => t.events) = some [.userWrite 0x800010 9] ∧
    look (.rangeNone 0x4000 .read) idle (fun t => (t.reply, kinds t)) = some (.u32 0, [.unmapped]) := by
  decide +kernel

/-- Rule R144: inside a byte window an access of any width touches one byte of whatever target answers. -/
theorem test_byte_windows :
    look (.mwr8 0x1000011 0x44) (under bytewise) (fun t => t.vram) = some [(0x11, 0x44)] ∧
    look (.mwr32 0x1000011 0x11223344) (under bytewise) (fun t => t.vram) = some [(0x11, 0x44)] ∧
    look (.mrd32 0x1FFFFFF) { under bytewise with ramin := [(0, 1), (0xFFFFF, 9)] } (fun t => t.reply) = some (.u32 9) ∧
    look (.mrd32 0x1802) (under bytewise) (fun t => t.reply) = some (.u32 0x18) ∧
    look (.mwr32 0x1804 0x01020306) (under bytewise) (fun t => (t.pciByte 4, t.pciByte 5)) = some (6, 0) ∧
    look (.mwr32 0x9200 0x1FF) (under bytewise) (fun t => t.ptimerNum) = some 0xFF ∧
    look (.mrd32 0x140) { under bytewise with pmcIntrEn := 0x103 } (fun t => t.reply) = some (.u32 3) := by
  decide +kernel

/-- Rules R131, R62: an address outside a window that is aligned into it is an access to the whole dword. -/
theorem test_aligned_into_a_byte_window :
    look (.mwr32 0x1000022 0x11223344) (under bytewise) (fun t => t.vram) =
      some [(0x20, 0x44), (0x21, 0x33), (0x22, 0x22), (0x23, 0x11)] ∧
    look (.mwr8 0x1000022 0xAA) { under bytewise with vram := [(0x20, 1), (0x21, 2), (0x22, 3), (0x23, 4)] }
      (fun t => t.vram) = some [(0x20, 1), (0x21, 2), (0x22, 0xAA), (0x23, 4)] ∧
    look (.mrd8 0x1000023) { under bytewise with vram := [(0x20, 1), (0x21, 2), (0x22, 3), (0x23, 4)] }
      (fun t => t.reply) = some (.u8 4) := by
  decide +kernel

/-! ### Steps: registers -/

/-- Rule R171's worked example. -/
theorem test_pmcBoot : look (.pmcBoot (.write 0xFFFFFFFF)) idle (fun t => (t.pmcEnable, kinds t)) = some (0, [.access]) := by
  decide +kernel

/-- Rule R172's worked example, and rule R173's. -/
theorem test_pmcIntr :
    look (.pmcIntr .read) (pend .ptimer 1 1 0) (fun t => t.reply) = some (.u32 0x00100000) ∧
    look (.pmcIntr (.write 0x80000000)) { idle with pmcIntr := 0x80000000, pmcIntrEn := 3, irqLine := true }
      (fun t => (t.pmcIntr, t.irqLine)) = some (0, false) := by
  decide +kernel

/-- Rule R174's worked example. -/
theorem test_pmcIntrEn : look (.pmcIntrEn (.write 0xFFFFFFFF)) idle (fun t => t.pmcIntrEn) = some 3 := by decide +kernel

/-- Rule R193 on each bank: only the bits set in the value are cleared. -/
theorem test_bank_intr :
    look (.pbusIntr (.write 6)) (pend .pbus 5 0 0) (fun t => t.intrOf .pbus) = some 1 ∧
    look (.pfifoIntr (.write 6)) (pend .pfifo 5 0 0) (fun t => t.intrOf .pfifo) = some 1 ∧
    look (.ptimerIntr (.write 6)) (pend .ptimer 5 0 0) (fun t => t.intrOf .ptimer) = some 1 ∧
    look (.pmeIntr (.write 6)) (pend .pme 5 0 0) (fun t => t.intrOf .pme) = some 1 ∧
    look (.pgraphIntr (.write 6)) (pend .pgraph 5 0 0) (fun t => t.intrOf .pgraph) = some 1 ∧
    look (.pvideoIntr (.write 6)) (pend .pvideo 5 0 0) (fun t => t.intrOf .pvideo) = some 1 := by
  decide +kernel

/-- Rule R194 on each bank: enabling a pending source makes it count, at its own position (rule R8). -/
theorem test_bank_intr_en :
    look (.pbusIntrEn (.write 1)) (pend .pbus 1 0 1) (fun t => (t.pmcIntr, t.irqLine)) = some (0x10000000, true) ∧
    look (.pfifoIntrEn (.write 1)) (pend .pfifo 1 0 1) (fun t => (t.pmcIntr, t.irqLine)) = some (0x100, true) ∧
    look (.ptimerIntrEn (.write 1)) (pend .ptimer 1 0 1) (fun t => (t.pmcIntr, t.irqLine)) = some (0x100000, true) ∧
    look (.pmeIntrEn (.write 1)) (pend .pme 1 0 1) (fun t => (t.pmcIntr, t.irqLine)) = some (0x10, true) ∧
    look (.pgraphIntrEn (.write 1)) (pend .pgraph 1 0 1) (fun t => (t.pmcIntr, t.irqLine)) = some (0x1000, true) ∧
    look (.pvideoIntrEn (.write 1)) (pend .pvideo 1 0 1) (fun t => (t.pmcIntr, t.irqLine)) = some (0x10000, true) := by
  decide +kernel

/-- Rule R191: the named `Plain` registers. -/
theorem test_plain :
    look (.pmcEnable (.write 0x80000001)) idle (fun t => t.pmcEnable) = some 0x80000001 ∧
    look (.ptimerNumerator (.write 3)) idle (fun t => (t.ptimerNum, t.ptimerDen)) = some (3, 0) ∧
    look (.ptimerDenominator (.write 3)) idle (fun t => (t.ptimerNum, t.ptimerDen)) = some (0, 3) := by
  decide +kernel

/-- Rules R241 and R242: a write ORs into its half. -/
theorem test_time_halves :
    look (.ptimerTimeLo (.write 2)) { idle with ptimerTime := 0x100000001 } (fun t => t.ptimerTime) = some 0x100000003 ∧
    look (.ptimerTimeHi (.write 2)) { idle with ptimerTime := 0x100000001 } (fun t => t.ptimerTime) = some 0x300000001 ∧
    look (.ptimerAlarmLo (.write 2)) { idle with ptimerAlarm := 0x100000001 } (fun t => t.ptimerAlarm) = some 0x100000003 ∧
    look (.ptimerAlarmHi .read) { idle with ptimerAlarm := 0x700000001 } (fun t => t.reply) = some (.u32 7) := by
  decide +kernel

/-- Rule R196's worked example; a revision that takes the write stores it. -/
theorem test_straps :
    look (.pstrapsStraps (.write 0x12345678)) idle (fun t => (t.straps, kinds t)) = some (0, [.anomalyStraps, .access]) ∧
    look (.pstrapsStraps (.write 0x12345678)) (under lenient) (fun t => t.straps) = some 0x12345678 := by
  decide +kernel

/-- Rules R230 to R232: M = 1, N = 2, P = 1 is 13.5 MHz; zero M and N count as 1. -/
theorem test_dividers :
    look (.pramdacVpll (.write 0x00010201)) idle (fun t => (t.pclk, t.events)) =
      some ({ armed := true, period := 1000000 / 13500000 }, [.speedChanged]) ∧
    look (.pramdacMpll (.write 0)) idle (fun t => (t.mclk, t.events)) =
      some ({ armed := true, period := 1000000 / 13500000 }, []) := by
  decide +kernel

/-- Rule R245: a palette byte keeps the low byte of what is written. -/
theorem test_palette :
    look (.palByte0 (.write 0x1AB)) idle (fun t => t.pal[0]) = some 0xAB ∧
    look (.palByte1 (.write 0x1AB)) idle (fun t => t.pal[1]) = some 0xAB ∧
    look (.palByte2 (.write 0x1AB)) idle (fun t => t.pal[2]) = some 0xAB ∧
    look (.palByte3 .read) { idle with pal := #v[1, 2, 3, 4] } (fun t => t.reply) = some (.u32 4) := by
  decide +kernel

/-- Rule R192: a record with the address, and nothing stored. -/
theorem test_unimpl :
    look (.unimpl 0x204 (.write 7)) idle (fun t => t.diag) =
      some [{ kind := .unimplReg, addr := 0x204, value := 7, name := .none }] := by
  decide +kernel

/-! ### Steps: methods -/

/-- Rule R263 with rule R282: the notify context is set and signalled at once. -/
theorem test_method_generic :
    look (.method 0x1F (sub 0x100 9)) idle (fun t => (t.notifyCtx, t.events)) =
      some (some 9, [.notify 9 1 2 0x100]) ∧
    look (.mGeneric 0x07 (sub 0x104 9)) idle kinds = some [.unimplMethod] := by
  decide +kernel

/-- Rules R5 and R94: REFCFG's method ids have 13 bits; another configuration's have 16, and no channel bit. -/
theorem test_tuple_widths :
    look (.method 0x1F (sub 0xE100 9)) idle (fun t => t.events) = some [.notify 9 1 2 0x100] ∧
    look (.method 0x41 (sub 0xE300 9)) { under other with notifyCtx := some 3 } (fun t => (t.pg.beta, t.events, kinds t)) =
      some (0, [.notify 3 0 2 0xE300], [.unimplMethod]) := by
  decide +kernel

/-- Rule R264: the stop under REFCFG, a record and the notifier under the lenient policy. -/
theorem test_unknown_class :
    look (.method 0x1F (sub 0x105 9)) idle (fun t => (t.fatal, t.events)) = some (true, []) ∧
    look (.mUnknownClass 0x1F (sub 0x105 9)) { under lenient with notifyCtx := some 3 } (fun t => (t.fatal, t.events)) =
      some (false, [.notify 3 1 2 0x105]) := by
  decide +kernel

/-- Rules R266, R267, R269, R270. -/
theorem test_parameter_classes :
    look (.mBeta (sub 0x300 0x80000001)) idle (fun t => t.pg.beta) = some 0x80000001 ∧
    look (.mRop (sub 0x300 0x1CC)) idle (fun t => t.pg.rop) = some 0xCC ∧
    look (.mPlane (sub 0x304 0xFF00FF)) idle (fun t => t.pg.planeMask) = some 0xFF00FF ∧
    look (.mClip (sub 0x304 0x00200010)) idle (fun t => (t.pg.clipW, t.pg.clipH)) = some (0x10, 0x20) := by
  decide +kernel

/-- Rule R281: a method of another class's id is logged. -/
theorem test_unknown_methods :
    look (.mBeta (sub 0x304 1)) idle (fun t => (t.pg.beta, kinds t)) = some (0, [.unimplMethod]) ∧
    look (.mChroma (sub 0x300 1)) idle kinds = some [.unimplMethod] ∧
    look (.mRect (sub 0x480 1)) idle kinds = some [.unimplMethod] := by
  decide +kernel

/-- Rule R271: the shape takes two bits, and the bitmap's halves replace. -/
theorem test_pattern :
    look (.mPattern (sub 0x308 7)) idle (fun t => t.pg.patShape) = some 3 ∧
    look (.mPattern (sub 0x31C 0x12345678)) { idle with pg := { idle.pg with patBitmap := 0xFFFFFFFFFFFFFFFF } }
      (fun t => t.pg.patBitmap) = some 0x12345678FFFFFFFF := by
  decide +kernel

/-- Rule R272: a point of the last rectangle, and a fill of no width. -/
theorem test_rect :
    look (.mRect (sub 0x478 0x00070003)) idle (fun t => (t.pg.rectX[15], t.pg.rectY[15])) = some (3, 7) ∧
    look (.mRect (sub 0x47C 0x00070000)) idle (fun t => (t.vram, kinds t)) = some ([], []) ∧
    look (.method 0x07 (sub 0x500 0x00070003)) (under other) (fun t => (t.pg.rectX[7], t.pg.rectY[7])) = some (3, 7) := by
  decide +kernel

/-- Rules R273 to R280 and R282: the method runs and then the notifier. -/
theorem test_black_box :
    (∀ p ∈ rasterRows, completes (p.2 (sub 0x105 0)) idle = true) ∧
    completes (.method 0x21 (sub 0x105 0)) (under other) = true := by
  decide +kernel

/-! ### Witnesses: the hypotheses of each statement hold of something concrete, at the ends of their ranges -/

/-- O1: operands at the ends of their rows are well formed. -/
theorem witness_DecodeOfEncodeIsTheInstruction :
    wellFormed (.rangePbusPci 0x1800 .read) = true ∧ wellFormed (.rangePbusPci 0x18FF .read) = true ∧
    wellFormed (.rangePbus 0x17FF .read) = true ∧ wellFormed (.rangeRamin 0x1FFFFFF .read) = true ∧
    wellFormed (.unimpl 0x204 .read) = true ∧ wellFormed (.rmaWrData 31 0xFF) = true ∧
    wellFormed (.mGeneric 0x1F (sub 0x104 0)) = true ∧ wellFormed (.mRect (sub 0x1FFF 0)) = true ∧
    wellFormed (.mUnknownClass 0x0A (sub 0x105 0)) = true ∧ wellFormed (.method 0x1F (sub 0x1FFF 0)) = true := by
  decide +kernel

/-- O2: a frame of each format but RMA decodes. -/
theorem witness_DecodedFrameIsTheEncodingOfAWellFormedCase :
    reads .op 0x0C .tickPclk ∧ reads .range 0x1800 (.rangePbusPci 0x1800 .read) ∧ reads .reg 0x200 (.pmcEnable .read) ∧
    reads .method 0x07 (.mRect { ch := 0, sc := 0, m := 0x105, ctx := 0, param := 0 }) := by
  decide +kernel

/-- O4: a presented operation, a table word, no operation, and a frame that presents none. -/
theorem witness_StepRunsTheDecodedOperation :
    { idle with stream := [{ fmt := .op, word := 0x0C }] }.stream = { fmt := .op, word := 0x0C } :: [] ∧
    decode { fmt := .op, word := 0x0C } = .ok .tickPclk ∧ decodeTableWord 8 0x0C = some .tickPclk ∧
    idle.stream = [] ∧ decode { fmt := .op, word := 0xFF } = .error .reservedKey := by
  decide +kernel

/-- O5: a stopped block. -/
theorem witness_StoppedBlockTakesOnlyReset : { idle with fatal := true }.fatal = true ∧ Instr.swiRaise ≠ .reset := by
  decide +kernel

/-- O6 and every statement whose one hypothesis is `fatal = false`. -/
theorem witness_EveryOperationCompletes : idle.fatal = false ∧ (under lenient).fatal = false := by decide +kernel

/-- O7: an operation that stops the block, in each of its two forms. -/
theorem witness_OnlyAnUnknownClassStopsTheBlock :
    look (.method 0x1F (sub 0x105 0)) idle (fun t => t.fatal) = some true ∧
    look (.mUnknownClass 0x00 (sub 0x105 0)) idle (fun t => t.fatal) = some true := by
  decide +kernel

/-- A state in the middle of a run: a bank raised, a byte stored, a timer armed. -/
def busy : State :=
  { idle with
    intr := idle.intr.set 2 1
    intrEn := idle.intrEn.set 2 1
    pmcIntr := 0x80100000
    pmcIntrEn := 3
    irqLine := true
    pclk := { armed := true, period := synthPeriod idle.cfg.1 0 }
    vram := [(0x3FFFFF, 0xAA)]
    notifyCtx := some 5
    ptimerAlarm := 0x8000000000000000
    stream := [{ fmt := .op, word := 0x10 }] }

/-- The step from `busy` answers a next state. -/
theorem busy_steps :
    (match step busy with
     | .next _ => true
     | .fault _ => false
     | .refused _ => false) = true := by
  decide +kernel

/-- O8: the aggregator's state holds with a bank and bit 31 pending. -/
theorem witness_EveryStepKeepsTheInterruptState : busy.intrOk := by
  unfold State.intrOk
  decide +kernel

/-- O9: the byte arrays' form holds with a byte stored at the last offset. -/
theorem witness_EveryStepKeepsTheMemoryForm : busy.memOk := by
  unfold State.memOk
  decide +kernel

/-- O10: the PCI bytes and an armed timer's period. -/
theorem witness_EveryStepKeepsThePciBytesAndTimerPeriods : busy.pciOk ∧ busy.clocksOk := by
  refine ⟨?_, fun _ => rfl, fun h => ?_⟩
  · unfold State.pciOk
    decide +kernel
  · cases h

/-- O12 to O14: `busy` takes its one operation, which is not RESET, and its notifier and timer are set. -/
theorem witness_WhatOnlyResetTakesBack :
    completes .swiRaise busy = true ∧ Instr.swiRaise ≠ .reset ∧ busy.notifyCtx ≠ none ∧ busy.pclk.armed = true ∧
    look (.pramdacMpll (.write 0)) busy (fun t => t.mclk.armed) = some true := by
  decide +kernel

/-- O15: addresses that agree below bit 25, one of them at the top, with and without a window of the shim; misaligned
addresses outside the window, one of which is aligned onto a palette byte. -/
theorem witness_MisalignedAccessIsTheAlignedAccess :
    (0xFF000203 : Word).toNat % 2 ^ 25 = (0x01000203 : Word).toNat % 2 ^ 25 ∧
    idle.fatal = false ∧ idle.cfg.1.rmaMmioWindow = none ∧ (under windowed).cfg.1.rmaMmioWindow ≠ none ∧
    idle.cfg.1.inByteWindow (maskAddr idle.cfg.1 0x6813CA) = false ∧
    idle.cfg.1.inByteWindow (maskAddr idle.cfg.1 0x6813C5) = false ∧
    idle.cfg.1.inByteWindow (maskAddr idle.cfg.1 0xFFFFFFFF) = false ∧
    idle.cfg.1.inByteWindow (maskAddr idle.cfg.1 (0xFFFFFFFF &&& ~~~3)) = false ∧
    targetOf idle.cfg.1 (alignAddr idle.cfg.1 0x6813CA) = .region (.bank (.sub .pramdac)) ∧
    ∃ e ∈ idle.cfg.1.rtab, e.kind = .plain (.pal 2) ∧ e.addr = alignAddr idle.cfg.1 0x6813CA := by
  decide +kernel

/-- O16: the first address after PFIFO and the last before PTIMER are unmapped. -/
theorem witness_UnmappedAddressSoftFails :
    targetOf idle.cfg.1 (alignAddr idle.cfg.1 0x4000) = .unmapped ∧
    targetOf idle.cfg.1 (alignAddr idle.cfg.1 0x8FFF) = .unmapped ∧
    ∃ miss : Word → Word → State, ∀ x w, miss x w =
      { idle with diag := idle.diag ++ [{ kind := .unmapped, addr := x, value := w, name := .none }] } :=
  ⟨by decide +kernel, by decide +kernel, _, fun _ _ => rfl⟩

/-- O17, O45: the configurations; under another one, an address of a row that a region answers and of the default
row. -/
theorem witness_BusOperationIsItsRangeRow :
    idle.cfg = refCfg32 ∧ (under refCfg16).cfg = refCfg16 ∧
    targetOf (under bytewise).cfg.1 (alignAddr (under bytewise).cfg.1 ((0x1000022 : BitVec 25).setWidth 32)) =
      (match RangeRow.vram.region with
        | some g => .region g
        | none => .unmapped) ∧
    targetOf (under bytewise).cfg.1 (alignAddr (under bytewise).cfg.1 ((0x4003 : BitVec 25).setWidth 32)) =
      (match RangeRow.unmapped.region with
        | some g => .region g
        | none => .unmapped) :=
  ⟨rfl, rfl, by decide +kernel, by decide +kernel⟩

/-- O18: a REG row, and addresses of a bank beside registers. -/
theorem witness_BusOperationIsItsRegisterRow :
    regRows.any (fun p => p.1 == 0x06813C9) = true ∧ unimplAddr 0x204 = true ∧ unimplAddr 0x1FC = true ∧
    unimplAddr 0x680300 = true := by
  decide +kernel

/-- O19: both ends of the lanes outside a byte window. -/
theorem witness_NarrowAccessIsALaneOfTheDword :
    idle.cfg.1.inByteWindow (maskAddr idle.cfg.1 0x200) = false ∧ 0 = (0x200 : Word).toNat % 4 ∧
    idle.cfg.1.inByteWindow (maskAddr idle.cfg.1 0x203) = false ∧ 3 = (0x203 : Word).toNat % 4 := by
  decide +kernel

/-- O20: both ends of the palette window, a palette byte and an added entry in a byte window, windows over VRAM and
over a `Computed` register, and two values that agree in bits 7 to 0. -/
theorem witness_ByteWindowAccessTouchesOneByte :
    idle.cfg.1.inByteWindow (maskAddr idle.cfg.1 0x6813C6) = true ∧
    idle.cfg.1.inByteWindow (maskAddr idle.cfg.1 0x6813C9) = true ∧
    (∃ e ∈ idle.cfg.1.rtab, e.kind = .plain (.pal 3) ∧ e.addr = maskAddr idle.cfg.1 0x6813C9) ∧
    targetOf idle.cfg.1 (maskAddr idle.cfg.1 0x6813C9) = .region (.bank (.sub .pramdac)) ∧
    (under windowed).cfg.1.inByteWindow (maskAddr (under windowed).cfg.1 0x20D) = true ∧
    (∃ e ∈ (under windowed).cfg.1.rtab, e.kind = .plain (.extra 0) ∧ e.addr = maskAddr (under windowed).cfg.1 0x20D) ∧
    targetOf (under windowed).cfg.1 (maskAddr (under windowed).cfg.1 0x20D) = .region (.bank .pmc) ∧
    (∃ e' ∈ (under windowed).cfg.1.rtab, e'.kind = .plain (.extra 0) ∧ e'.addr ≠ 0x20D) ∧
    (under bytewise).cfg.1.inByteWindow (maskAddr (under bytewise).cfg.1 0x1000010) = true ∧
    targetOf (under bytewise).cfg.1 (maskAddr (under bytewise).cfg.1 0x1000010) = .region .vram ∧
    (under bytewise).cfg.1.inByteWindow (maskAddr (under bytewise).cfg.1 0x140) = true ∧
    targetOf (under bytewise).cfg.1 (maskAddr (under bytewise).cfg.1 0x140) = .region (.bank .pmc) ∧
    (∃ e ∈ (under bytewise).cfg.1.rtab, e.addr = maskAddr (under bytewise).cfg.1 0x140) ∧
    ∀ j, j < 8 → (0x1AB : Word).getLsbD j = (0xAB : Word).getLsbD j := by
  decide +kernel

/-- O21: the rows, an offset of each, a PROM byte inside a window, and one outside that is aligned away from it. -/
theorem witness_MemoryTargetReadsFourBytes :
    (memoryRows.map fun p => p.1) = [.prom, .vram, .ramin] ∧
    0 = (rangeAddr 0x110003 idle - regionLo idle.cfg.1.amap .prom).toNat ∧
    true = (under bytewise).cfg.1.inByteWindow (maskAddr (under bytewise).cfg.1 ((0x110003 : BitVec 25).setWidth 32)) ∧
    3 = (rangeAddr 0x110003 (under bytewise) - regionLo (under bytewise).cfg.1.amap .prom).toNat ∧
    false = (under bytewise).cfg.1.inByteWindow (maskAddr (under bytewise).cfg.1 ((0x110002 : BitVec 25).setWidth 32)) := by
  decide +kernel

/-- O22: four bytes at the ends of VRAM and RAMIN, none of which falls on another. -/
theorem witness_MemoryTargetWritesFourBytes :
    4 = (if idle.cfg.1.inByteWindow (maskAddr idle.cfg.1 ((0x17FFFFF : BitVec 25).setWidth 32)) then 1 else 4) ∧
    0x7FFFFC = (rangeAddr 0x17FFFFF idle - regionLo idle.cfg.1.amap .vram).toNat ∧
    0 = (rangeAddr 0x1C00000 idle - regionLo idle.cfg.1.amap .ramin).toNat ∧
    (∀ j, j < 4 → 0 < j → (0x7FFFFC + j) % idle.cfg.1.vramSize ≠ (0x7FFFFC + 0) % idle.cfg.1.vramSize) ∧
    0x3FFFFF % idle.cfg.1.vramSize = (0x7FFFFC + 3) % idle.cfg.1.vramSize ∧
    ∀ i, i < 4 → 4 % idle.cfg.1.raminSize ≠ (0 + i) % idle.cfg.1.raminSize := by
  decide +kernel

/-- O22: one byte inside a window over VRAM and over the last of RAMIN; four from an address that is aligned into
one. -/
theorem witness_MemoryTargetWritesOneByte :
    1 = (if (under bytewise).cfg.1.inByteWindow (maskAddr (under bytewise).cfg.1 ((0x1000011 : BitVec 25).setWidth 32))
      then 1 else 4) ∧
    0x11 = (rangeAddr 0x1000011 (under bytewise) - regionLo (under bytewise).cfg.1.amap .vram).toNat ∧
    1 = (if (under bytewise).cfg.1.inByteWindow (maskAddr (under bytewise).cfg.1 ((0x1FFFFFF : BitVec 25).setWidth 32))
      then 1 else 4) ∧
    0x3FFFFF = (rangeAddr 0x1FFFFFF (under bytewise) - regionLo (under bytewise).cfg.1.amap .ramin).toNat ∧
    4 = (if (under bytewise).cfg.1.inByteWindow (maskAddr (under bytewise).cfg.1 ((0x1000022 : BitVec 25).setWidth 32))
      then 1 else 4) := by
  decide +kernel

/-- O24: a row, an entry at an address of it, and an address of it with no entry. -/
theorem witness_BankRowConsultsTheRegisterTable :
    RangeRow.palette ∈ bankRangeRows ∧ (∃ e ∈ idle.cfg.1.rtab, e.addr = rangeAddr 0x6813C9 idle) ∧
    (∀ e ∈ idle.cfg.1.rtab, e.addr ≠ rangeAddr 0x1000FF idle) := by
  decide +kernel

/-- O28: values that claim only bits that are not pending, some that are, and none. -/
theorem witness_AggregateRegisterIsWriteOneToClear :
    ((0x10 : Word).toNat % 2 ^ 31 ≠ 0 ∧ ((0x10 : Word) &&& busy.pmcIntr).toNat % 2 ^ 31 = 0) ∧
    ¬ ((0x00100000 : Word).toNat % 2 ^ 31 ≠ 0 ∧ ((0x00100000 : Word) &&& busy.pmcIntr).toNat % 2 ^ 31 = 0) ∧
    ¬ ((0x80000000 : Word).toNat % 2 ^ 31 ≠ 0 ∧ ((0x80000000 : Word) &&& busy.pmcIntr).toNat % 2 ^ 31 = 0) := by
  decide +kernel

/-- O27, O29, O30: a row of each list. -/
theorem witness_register_rows :
    (∃ p ∈ plainRows, p.1 = .ptimerDenominator) ∧ (∃ p ∈ palRows, p.1 = 3) ∧ (∃ p ∈ intrRows, p.1 = .pvideo) ∧
    (∃ p ∈ intrEnRows, p.1 = .pbus) ∧ ∃ p ∈ rasterRows, p.1 = .image := by
  simp [plainRows, palRows, intrRows, intrEnRows, rasterRows]

/-- O31: the fields of a divider value, zero M and N clamped. -/
theorem witness_DividerWriteArmsItsTimer :
    1 = max (fieldOf 0x00070000 idle.cfg.1.pllM.hi idle.cfg.1.pllM.lo) 1 ∧
    1 = max (fieldOf 0x00070000 idle.cfg.1.pllN.hi idle.cfg.1.pllN.lo) 1 ∧
    7 = fieldOf 0x00070000 idle.cfg.1.pllP.hi idle.cfg.1.pllP.lo := by
  decide +kernel

/-- O33: a state for each of the five cases: nothing enabled; a passive read; nothing pending; wanted; suppressed. -/
theorem witness_RecomputeFollowsTheProcedure :
    (pend .pme 1 1 0).pmcIntrEn = 0 ∧ (pend .pme 1 1 1).pmcIntrEn ≠ 0 ∧
    (pend .pme 1 0 1).pmcIntrEn ≠ 0 ∧ (recompute true (pend .pme 1 0 1)).pmcIntr = 0 ∧
    (recompute true (pend .pme 1 1 1)).pmcIntr.toNat % 2 ^ 31 ≠ 0 ∧
    (pend .pme 1 1 1).pmcIntrEn.getLsbD idle.cfg.1.pmcEnHwBit = true ∧
    (recompute true (pend .pme 1 1 2)).pmcIntr.getLsbD 31 = false ∧
    (pend .pme 1 1 2).pmcIntrEn.getLsbD idle.cfg.1.pmcEnHwBit = false := by
  decide +kernel

/-- O35: every bank idle, PBUS enabled and routed to 28. -/
theorem witness_RaisedBankShowsItsAssignedBit :
    (∀ b ∈ allIntrBanks, (pend .pbus 0 1 1).intrOf b = 0) ∧ (pend .pbus 0 1 1).intrEnOf .pbus = 1 ∧
    pmcBitOf (pend .pbus 0 1 1).cfg.1.pmcBit .pbus = some 28 ∧ (pend .pbus 0 1 1).pmcIntr.getLsbD 31 = false ∧
    (pend .pbus 0 1 1).irqLine = false := by
  decide +kernel

/-- O26, O37: added entries, one of them in a byte window, at the address of a RANGE row. -/
theorem witness_PlainRegisterStoresUnderItsMask :
    (under windowed).fatal = false ∧ RangeRow.pmc ∈ bankRangeRows ∧
    (∃ e ∈ (under windowed).cfg.1.rtab, e.kind = .plain (.extra 0) ∧ e.addr = rangeAddr 0x208 (under windowed)) ∧
    ∃ e ∈ (under windowed).cfg.1.rtab, e.kind = .plain (.extra 0) ∧ e.addr = rangeAddr 0x20D (under windowed) := by
  decide +kernel

/-- O37: a revision that supports strap overwrite. -/
theorem witness_ReadReturnsWhatWasWritten :
    (under lenient).fatal = false ∧ (under lenient).cfg.1.strapOverwrite = true := by
  decide +kernel

/-- O38: the first and the last port with no transaction, at an offset below 4 and at the last one; the ports on
both sides are not the shim's. -/
theorem witness_ModeSelectsTheSignature :
    isRmaPort idle.cfg.1 0x3D0 = true ∧ isRmaPort idle.cfg.1 0x3D3 = true ∧ (shim 0 0 0x0E).rmaMode.getLsbD 0 = false ∧
    31 = 2 * ((shim 0 0 0x0E).rmaMode &&& (idle.cfg.1.modeMax - 1)).toNat + ((0x3D3 : Half).toNat - idle.cfg.1.rmaPortBase.toNat) ∧
    0 = 2 * (idle.rmaMode &&& (idle.cfg.1.modeMax - 1)).toNat + ((0x3D0 : Half).toNat - idle.cfg.1.rmaPortBase.toNat) ∧
    isRmaPort idle.cfg.1 0x3CF = false ∧ isRmaPort idle.cfg.1 0x3D4 = false := by
  decide +kernel

/-- A transaction whose address lies in the shim's own window. -/
def inward : State := { under windowed with rmaAddr := 0x50001C, rmaMode := 0x0B }

/-- O39: a read through the shim that reaches a register, one that reaches the shim's own window, and one that
reaches a byte window. -/
theorem witness_PortReadPassesThrough :
    isRmaPort idle.cfg.1 0x3D3 = true ∧ (shim 0x200 0 0x01).rmaMode.getLsbD 0 = true ∧
    0 = 2 * ((shim 0x200 0 0x01).rmaMode &&& (idle.cfg.1.modeMax - 1)).toNat ∧
    3 = (0x3D3 : Half).toNat - idle.cfg.1.rmaPortBase.toNat ∧
    targetOf idle.cfg.1 (alignAddr idle.cfg.1 (((shim 0x200 0 0x01).rmaAddr + BitVec.ofNat 32 0) &&& ~~~3)) ≠ .rmaMmio ∧
    inward.fatal = false ∧ inward.rmaMode.getLsbD 0 = true ∧ 20 = 2 * (inward.rmaMode &&& (inward.cfg.1.modeMax - 1)).toNat ∧
    targetOf inward.cfg.1 (alignAddr inward.cfg.1 0x50001C) = .rmaMmio ∧
    targetOf inward.cfg.1 (alignAddr inward.cfg.1 ((0x4FFFEC + BitVec.ofNat 32 20) &&& ~~~3)) = .rmaMmio ∧
    (under bytewise).cfg.1.inByteWindow (maskAddr (under bytewise).cfg.1 ((0x9203 + BitVec.ofNat 32 0) &&& ~~~3)) = true ∧
    targetOf (under bytewise).cfg.1 (alignAddr (under bytewise).cfg.1 ((0x9203 + BitVec.ofNat 32 0) &&& ~~~3)) ≠ .rmaMmio := by
  decide +kernel

/-- O40: an address lane, a data lane below 3, and a port that is not the shim's. -/
theorem witness_PartialBurstWritesNothing :
    isRmaPort idle.cfg.1 0x3D4 = false ∧ isRmaPort idle.cfg.1 0x3D3 = true ∧
    0 = 2 * ((shim 0 0 0x01).rmaMode &&& (idle.cfg.1.modeMax - 1)).toNat ∧
    4 = 2 * ((shim 0 0 0x03).rmaMode &&& (idle.cfg.1.modeMax - 1)).toNat ∧
    2 = (0x3D2 : Half).toNat - idle.cfg.1.rmaPortBase.toNat := by
  decide +kernel

/-- O41: a fourth data byte with and without the advance, and one whose address lies in the shim's own window. -/
theorem witness_FourthDataByteCommitsOnce :
    isRmaPort idle.cfg.1 0x3D3 = true ∧
    ((shim 0x200 0 0x03).rmaMode &&& (idle.cfg.1.modeMax - 1)).toNat ≠ 0 ∧
    (0x3D3 : Half).toNat = idle.cfg.1.rmaPortBase.toNat + 3 ∧
    (∀ k, k < 4 → byteOf 0xDE000000 k = if k = 3 then 0xDE else byteOf (shim 0x200 0 0x03).rmaData k) ∧
    (shim 0x200 0 0x03).rmaMode &&& idle.cfg.1.modeAutoinc = 0 ∧
    (shim 0x200 0 0x0B).rmaMode &&& idle.cfg.1.modeAutoinc ≠ 0 ∧
    targetOf idle.cfg.1 (alignAddr idle.cfg.1 0x200) ≠ .rmaMmio ∧
    isRmaPort inward.cfg.1 0x3D3 = true ∧ (inward.rmaMode &&& (inward.cfg.1.modeMax - 1)).toNat ≠ 0 ∧
    targetOf inward.cfg.1 (alignAddr inward.cfg.1 inward.rmaAddr) = .rmaMmio := by
  decide +kernel

/-- O42: the last offset of the five bits, and both ends of the shim's window, with and without a transaction. -/
theorem witness_PortOperationIsItsRmaRow :
    isRmaPort idle.cfg.1 0x3D3 = true ∧
    31 = 2 * ((shim 0 0 0xFF).rmaMode &&& (idle.cfg.1.modeMax - 1)).toNat + ((0x3D3 : Half).toNat - idle.cfg.1.rmaPortBase.toNat) ∧
    31 < 32 ∧
    (under windowed).fatal = false ∧ (under windowed).cfg.1.rmaMmioWindow = some { lo := 0x500000, hi := 0x50001F } ∧
    Range.has { lo := 0x500000, hi := 0x50001F } (alignAddr (under windowed).cfg.1 0x500000) = true ∧
    Range.has { lo := 0x500000, hi := 0x50001F } (alignAddr (under windowed).cfg.1 0x50001F) = true ∧
    0 = (alignAddr (under windowed).cfg.1 0x500000 - 0x500000).toNat ∧
    31 = (alignAddr (under windowed).cfg.1 0x50001F - 0x500000).toNat ∧
    (under windowed).rmaMode.getLsbD 0 = false ∧ inward.rmaMode.getLsbD 0 = true := by
  decide +kernel

/-- O43: both settings of `mode[0]`, the lowest offset of the zero row, a data lane that commits, and an address in
the shim's own window. -/
theorem witness_RmaRowsDoWhatTheirOffsetSelects :
    idle.rmaMode.getLsbD 0 = false ∧ 4 ≤ (4 : BitVec 5).toNat ∧ (shim 0 0 1).rmaMode.getLsbD 0 = true ∧
    (31 : BitVec 5).toNat % 4 = 3 ∧ (30 : BitVec 5).toNat % 4 ≠ 3 ∧
    targetOf idle.cfg.1 (alignAddr idle.cfg.1 idle.rmaAddr) ≠ .rmaMmio ∧
    targetOf inward.cfg.1 (alignAddr inward.cfg.1 inward.rmaAddr) = .rmaMmio := by
  decide +kernel

/-- A memory-clock timer that counts one for one. -/
def ticking (time alarm : DWord) : State :=
  { idle with
    mclk := { armed := true, period := 1 }
    ptimerNum := 1
    ptimerDen := 1
    ptimerTime := time
    ptimerAlarm := alarm }

/-- O44: a timer that is not armed; the counter one short of the alarm, at the alarm, and wrapped to 0. -/
theorem witness_TimerExpiryAdvancesTheCounter :
    idle.mclk.armed = false ∧ (ticking 0 9).mclk.armed = true ∧ (ticking 0 9).ptimerNum ≠ 0 ∧ (ticking 0 9).ptimerDen ≠ 0 ∧
    8 = ((ticking 0 9).ptimerTime.toNat + 8 * (ticking 0 9).ptimerNum.toNat / (ticking 0 9).ptimerDen.toNat) % 2 ^ 64 ∧
    8 < (ticking 0 9).ptimerAlarm.toNat ∧
    9 = ((ticking 0 9).ptimerTime.toNat + 9 * (ticking 0 9).ptimerNum.toNat / (ticking 0 9).ptimerDen.toNat) % 2 ^ 64 ∧
    (ticking 0 9).ptimerAlarm.toNat ≤ 9 ∧
    0 = ((ticking 0xFFFFFFFFFFFFFFFF 0).ptimerTime.toNat + 1 * (ticking 0 0).ptimerNum.toNat / (ticking 0 0).ptimerDen.toNat) % 2 ^ 64 ∧
    (ticking 0xFFFFFFFFFFFFFFFF 0).ptimerAlarm.toNat ≤ 0 := by
  decide +kernel

/-- O46: the notify method, the last generic id and the first id above. -/
theorem witness_GenericMethodSetsTheNotifier :
    BitVec.ofNat 32 ((sub 0x2100 9).m.toNat % 2 ^ idle.cfg.1.wMethod) = idle.cfg.1.mSetNotifyCtx ∧
    BitVec.ofNat 32 ((sub 0x104 9).m.toNat % 2 ^ idle.cfg.1.wMethod) ≠ idle.cfg.1.mSetNotifyCtx ∧
    (sub 0x104 9).m < idle.cfg.1.tGeneric ∧ ¬ (sub 0x105 9).m < idle.cfg.1.tGeneric ∧
    (0 : Word) = BitVec.ofNat 32 ((sub 0 9).ch.toNat % 2 ^ (under other).cfg.1.wChan) ∧
    (2 : Word) = BitVec.ofNat 32 ((sub 0 9).sc.toNat % 2 ^ (under other).cfg.1.wSubchan) := by
  decide +kernel

/-- O47: both policies, and a class with no handler. -/
theorem witness_UnknownClassStopsOrIsLogged :
    idle.cfg.1.unknownClassPolicy = .fatal ∧ (under lenient).cfg.1.unknownClassPolicy = .logNoop ∧
    ¬ (narrowSub idle.cfg.1 (sub 0x105 9)).m < idle.cfg.1.tGeneric ∧
    (0x1F : Word) = BitVec.ofNat 32 ((0x3F : Word).toNat % 2 ^ idle.cfg.1.wClass) ∧
    ∀ p ∈ idle.cfg.1.classTab, p.1 ≠ 0x1F := by
  decide +kernel

/-- O48, O49: the record of an unlisted method. -/
theorem witness_ParameterClassesStoreTheirParameter :
    ∃ unlisted : Handler → State, ∀ h, unlisted h =
      idle.addDiag .unimplMethod (narrowSub idle.cfg.1 (sub 0x1FFF 9)).m (sub 0x1FFF 9).param (.cls h) :=
  ⟨_, fun _ => rfl⟩

/-- O50: the colour, the points and sizes of both ends, and ids that are none of them. -/
theorem witness_RectFillsRowByRow :
    idle.cfg.1.methods = refMethods ∧ (narrowSub idle.cfg.1 (sub 0x304 0)).m.toNat = 0x304 ∧
    (narrowSub idle.cfg.1 (sub 0x400 0)).m.toNat = 0x400 + 8 * (0 : Fin 16).val ∧
    (narrowSub idle.cfg.1 (sub 0x2478 0)).m.toNat = 0x400 + 8 * (15 : Fin 16).val ∧
    (narrowSub idle.cfg.1 (sub 0x404 0)).m.toNat = 0x404 + 8 * (0 : Fin 16).val ∧
    (narrowSub idle.cfg.1 (sub 0x47C 0)).m.toNat = 0x404 + 8 * (15 : Fin 16).val ∧
    (narrowSub idle.cfg.1 (sub 0x480 0)).m.toNat = 0x480 := by
  decide +kernel

/-- A rendering state whose every bitmap bit selects opaque ink. -/
def inked : State := { idle with pg := { idle.pg with clipX := 2, clipW := 3, patColor0 := ink, patColor1 := ink } }

/-- O51, O52: a pixel at the closed end of the clip with a pattern colour; one outside; the reserved shape. -/
theorem witness_PixelIsWrittenWhenEveryTestPasses :
    ((inked.pg.clipX.toNat ≤ 5 ∧ 5 ≤ inked.pg.clipX.toNat + inked.pg.clipW.toNat) ∧
      (inked.pg.clipY.toNat ≤ 0 ∧ 0 ≤ inked.pg.clipY.toNat + inked.pg.clipH.toNat) ∧ inked.pg.chroma.a = 0) ∧
    patternSelect inked.pg 5 0 = some ink ∧ ¬ 6 ≤ inked.pg.clipX.toNat + inked.pg.clipW.toNat ∧
    patternSelect idle.pg 0 0 = none ∧ patternSelect { inked.pg with patShape := 3 } 5 0 = none := by
  decide +kernel

/-- A fill colour that is the chroma key, which the grobj at RAMIN 0 enables. -/
def keyed : State :=
  { idle with
    ramin := [(0, 0), (1, 0x10), (2, 0), (3, 0)]
    pg := { idle.pg with chroma := ink, rectColor := ink } }

/-- O53: a pattern of zero alpha; a chroma key of the fill's own colour, enabled in the grobj. -/
theorem witness_SuppressedFillChangesNothing :
    idle.fatal = false ∧ idle.cfg.1.methods = refMethods ∧
    (narrowSub idle.cfg.1 (sub 0x47C 0)).m.toNat = 0x404 + 8 * (15 : Fin 16).val ∧
    (∀ k, k < 64 → (if idle.pg.patBitmap.getLsbD k then idle.pg.patColor1 else idle.pg.patColor0).a = 0) ∧
    keyed.fatal = false ∧ keyed.cfg.1.methods = refMethods ∧
    chromaEn keyed.cfg.1 (grobjFetch (sub 0x47C 0).ctx keyed) = true ∧ keyed.pg.chroma.a ≠ 0 ∧
    keyed.pg.rectColor = keyed.pg.chroma := by
  decide +kernel

/-- O54: a row, an added handler reached by METHOD, and a request list of each. -/
theorem witness_BlackBoxClassesChangeOnlyVram :
    (∃ p ∈ rasterRows, p.1 = .image) ∧ ¬ (narrowSub (under other).cfg.1 (sub 0x105 0)).m < (under other).cfg.1.tGeneric ∧
    handlerOf (under other).cfg.1.classTab (narrowClass (under other).cfg.1 0x61) = some (.raster (.added 0)) ∧
    ∃ o reqs, (o, reqs) = Config.raster (.added 0) (under other).pg (grobjFetch 0 (under other)) { m := 0x105, param := 0 }
      (fun k => (under other).byteAt .vram k) (fun k => (under other).byteAt .ramin k) :=
  ⟨by simp [rasterRows], by decide +kernel, by decide +kernel, _, _, rfl⟩

/-- O55: the last grobj inside RAMIN. -/
theorem witness_GrobjIsReadFreshFromRamin : idle.cfg = refCfg32 ∧ (0xFFFF : BitVec 28).toNat < 2 ^ 16 := by
  exact ⟨rfl, by decide⟩

/-- O56: another function, the last id byte, the first byte above, and both ends of both BARs. -/
theorem witness_ConfigurationBytesAreStored :
    ((0xFF : Byte) ≠ 0 ∨ (4 : Byte).toNat ≤ 3) ∧ ((0 : Byte) ≠ 0 ∨ (3 : Byte).toNat ≤ 3) ∧ 3 < (4 : Byte).toNat ∧
    (0x10 ≤ (0x10 : Byte).toNat ∧ (0x13 : Byte).toNat ≤ 0x13) ∧ (0x14 ≤ (0x14 : Byte).toNat ∧ (0x17 : Byte).toNat ≤ 0x17) := by
  decide

/-- O57: the last dword of the mirror, and a byte of it in a byte window. -/
theorem witness_PciMirrorIsTheConfigurationBytes :
    (0xFC : Byte) = BitVec.ofNat 8 (rangeAddr 0x18FF idle - regionLo idle.cfg.1.amap .pbusPci).toNat ∧
    false = idle.cfg.1.inByteWindow (maskAddr idle.cfg.1 ((0x18FF : BitVec 25).setWidth 32)) ∧
    true = (under bytewise).cfg.1.inByteWindow (maskAddr (under bytewise).cfg.1 ((0x1807 : BitVec 25).setWidth 32)) ∧
    (7 : Byte) = BitVec.ofNat 8 (rangeAddr 0x1807 (under bytewise) - regionLo (under bytewise).cfg.1.amap .pbusPci).toNat := by
  decide +kernel

/-- BAR0 at 0x02000000 and BAR1 at 0x03C00000, overlapping it, with the memory-space enable set. -/
def mapped : State :=
  { idle with pci := (((idle.pci.set 0x04 2).set 0x13 0x02).set 0x17 0x03).set 0x16 0xC0 }

/-- O58: both ends of the MMIO window, an address of the framebuffer above it, and one below both. -/
theorem witness_HostAccessIsRoutedByTheWindows :
    (0x02000000 : Word) = mapped.pciByte 0x13 ++ mapped.pciByte 0x12 ++ mapped.pciByte 0x11 ++ mapped.pciByte 0x10 ∧
    (0x03C00000 : Word) = mapped.pciByte 0x17 ++ mapped.pciByte 0x16 ++ mapped.pciByte 0x15 ++ mapped.pciByte 0x14 ∧
    (mapped.pciByte 0x04).getLsbD 1 = true ∧ hostOperation mapped 0x02000000 (.read .b4) = some (.mrd32 0) ∧
    hostOperation mapped 0x03FFFFFF (.read .b4) = some (.mrd32 0x1FFFFFF) ∧
    hostOperation mapped 0x01FFFFFF (.read .b4) = none ∧ hostOperation mapped 0x04000000 (.read .b4) = none ∧
    hostOperation { mapped with pci := mapped.pci.set 0x16 0xE0 } 0x041FFFFF (.read .b4) =
      some (.lfbrd .b4 0x3FFFFF) := by
  decide +kernel

/-- O59: the widths of the data, and an offset that wraps. -/
theorem witness_LinearFramebufferIsVram :
    (datumWidth (.d4 5)).bytes = 4 ∧ datumWord (.d4 5) = 5 ∧ (datumWidth (.d1 5)).bytes = 1 ∧ datumWord (.d1 5) = 5 ∧
    0 % idle.cfg.1.vramSize = ((0x3FFFFE : Word).toNat + 2) % idle.cfg.1.vramSize ∧
    ∀ i, i < 1 → 1 % idle.cfg.1.vramSize ≠ ((0 : Word).toNat + i) % idle.cfg.1.vramSize := by
  refine ⟨rfl, rfl, rfl, by decide, by decide +kernel, fun i h => ?_⟩
  have : i = 0 := by omega
  subst this
  decide +kernel

/-- O60: an entry of each kind that has a reset value in the register table. -/
theorem witness_ResetGivesEveryResetValue :
    (∃ e ∈ (under windowed).cfg.1.rtab, e.name = .plain .pmcEnable) ∧
    (∃ e ∈ (under windowed).cfg.1.rtab, e.name = .plain (.pal 3)) ∧
    (∃ e ∈ (under windowed).cfg.1.rtab, e.name = .plain (.extra 0)) ∧
    (under windowed).plainGet (.extra 0) 0x208 = 0x5A := by
  decide +kernel

end

end Sys2Proof.Tests
end

section
/-! The byte arrays keep their one form: each elementary change keeps it, so every operation and every step
does. Only a byte store writes an array, at an offset reduced modulo the array's size (rules R12, R66). -/

namespace Sys2Proof.Machine

/-- VRAM and RAMIN hold at least one byte under every configuration (rules R5, R66). -/
theorem arrays_nonempty (c : ValidCfg) : 0 < c.1.vramSize ∧ 0 < c.1.raminSize := by
  have hv := c.2
  simp only [Cfg.valid, Cfg.scalarsOk, isPow2, Bool.and_eq_true, Bool.or_eq_true, beq_iff_eq, bne_iff_ne] at hv
  obtain ⟨hvram, hramin⟩ : (c.1.vramSize = 0x200000 ∨ c.1.vramSize = 0x400000 ∨ c.1.vramSize = 0x800000) ∧
      c.1.raminSize ≠ 0 := by tauto
  omega

/-- The form is one of the two byte lists under the configuration's sizes. -/
theorem State.memOk_congr {s t : State} (hc : t.cfg = s.cfg) (hv : t.vram = s.vram) (hr : t.ramin = s.ramin)
    (h : s.memOk) : t.memOk := by
  simpa only [State.memOk, hc, hv, hr] using h

/-- Two arrays with no byte written have the form. -/
theorem State.memOk_of_empty {s : State} (hv : s.vram = []) (hr : s.ramin = []) : s.memOk := by
  simp [State.memOk, hv, hr, Mem.wf, memBelow]

/-- A byte store keeps the form: its offset is reduced into the array. -/
theorem State.memOk_setByte {s : State} (sp : Space) (off : Nat) (v : Byte) (h : s.memOk) :
    (s.setByte sp off v).memOk := by
  obtain ⟨hvram, hramin⟩ := arrays_nonempty s.cfg
  obtain ⟨wfVram, wfRamin, inVram, inRamin⟩ := h
  cases sp with
  | vram =>
    exact ⟨memSet_wf _ _ _ wfVram, wfRamin, memSet_below _ _ _ _ inVram (Nat.mod_lt _ hvram), inRamin⟩
  | ramin =>
    exact ⟨wfVram, memSet_wf _ _ _ wfRamin, inVram, memSet_below _ _ _ _ inRamin (Nat.mod_lt _ hramin)⟩
  | prom => exact ⟨wfVram, wfRamin, inVram, inRamin⟩

@[simp] theorem State.plainSet_vram (s : State) (p : PlainReg) (a v : Word) : (s.plainSet p a v).vram = s.vram := by
  cases p <;> rfl

@[simp] theorem State.plainSet_ramin (s : State) (p : PlainReg) (a v : Word) :
    (s.plainSet p a v).ramin = s.ramin := by
  cases p <;> rfl

/-- An elementary change keeps the form: it is a byte store, or it leaves both arrays. -/
theorem Move.memOk {s t : State} (m : Move s t) (h : s.memOk) : t.memOk := by
  cases m
  case byte sp off v => exact State.memOk_setByte sp off v h
  all_goals exact State.memOk_congr (by simp) (by simp) (by simp) h

/-- An operation keeps the form: RESET empties both arrays, and the stop leaves them. -/
theorem exec_memOk {i : Instr} {s t : State} (h : exec i s = .next t) (hs : s.memOk) : t.memOk := by
  rcases exec_cases h with ⟨-, rfl⟩ | ⟨-, -, moves⟩ | ⟨-, -, cls, v, rfl⟩
  · exact State.memOk_of_empty rfl rfl
  · exact moves.keep Move.memOk hs
  · exact State.memOk_congr rfl rfl rfl hs

/-- Settles O9: taking a frame from the stream touches no array, and the operation it presents keeps the form. -/
theorem everyStepKeepsTheMemoryForm : Obligations.EveryStepKeepsTheMemoryForm := by
  intro s t hs h
  rcases step_cases h with ⟨-, rfl⟩ | ⟨f, rest, i, -, -, hexec⟩ | ⟨f, rest, e, -, -, rfl⟩
  · exact hs
  · exact exec_memOk hexec (State.memOk_congr rfl rfl rfl hs)
  · exact State.memOk_congr rfl rfl rfl hs

end Sys2Proof.Machine
end

section
/-! The diagnostic trace is read by nothing (rule R14): each function of the model, run from two states that
differ in `DIAG` alone, gives two states that differ in `DIAG` alone, and the same value. The lemmas follow the
order of the model's definitions. -/

namespace Sys2Proof.Machine

/-! ### Differing in `DIAG` alone -/

/-- Two states agree but for `DIAG`. -/
def SameButDiag (s t : State) : Prop := ∃ d, t = { s with diag := d }

/-- A change of the state that reads no `DIAG`. -/
def Blind (f : State → State) : Prop := ∀ ⦃s t : State⦄, SameButDiag s t → SameButDiag (f s) (f t)

/-- A change of the state with a value, neither of which reads `DIAG`. -/
def BlindRead {α : Type} (f : State → State × α) : Prop :=
  ∀ ⦃s t : State⦄, SameButDiag s t → SameButDiag (f s).1 (f t).1 ∧ (f t).2 = (f s).2

/-- If one operation goes on, so does the other, to a state that agrees but for `DIAG`. -/
def SameOutcome (o p : Outcome) : Prop := ∀ t, o = .next t → ∃ u, p = .next u ∧ SameButDiag t u

/-- A record alone leaves the states agreeing but for `DIAG`. -/
theorem SameButDiag.addDiag {s t : State} (h : SameButDiag s t) (k : DiagKind) (a v : Word) (n : DiagName) :
    SameButDiag (s.addDiag k a v n) (t.addDiag k a v n) := by
  obtain ⟨d, rfl⟩ := h
  exact ⟨_, rfl⟩

/-- One test of what both states share selects the same branch of both. -/
theorem SameButDiag.ite {p : Prop} [Decidable p] {s t s' t' : State} (h : SameButDiag s t)
    (h' : SameButDiag s' t') : SameButDiag (if p then s else s') (if p then t else t') := by
  split
  · exact h
  · exact h'

/-- An operation completes alike from both states. -/
theorem SameButDiag.outcome {s s' u u' : State} (h : SameButDiag s s') (hu : SameButDiag u u') (r : Reply) :
    SameOutcome (complete s u r) (complete s' u' r) := by
  obtain ⟨d, rfl⟩ := h
  obtain ⟨e, rfl⟩ := hu
  intro t ht
  obtain ⟨running, rfl⟩ := complete_eq_next ht
  exact ⟨_, complete_next running _ r, e, rfl⟩

/-- An operation that hands back a value completes alike from both states. -/
theorem SameButDiag.outcome_read {α : Type} {f : State → State × α} {s s' : State} (h : SameButDiag s s')
    (hf : BlindRead f) (reply : α → Reply) :
    SameOutcome (complete s (f s).1 (reply (f s).2)) (complete s' (f s').1 (reply (f s').2)) := by
  obtain ⟨hstate, hvalue⟩ := hf h
  rw [hvalue]
  exact h.outcome hstate _

/-! ### The aggregator and the registers -/

theorem blind_recompute (sendNow : Bool) : Blind (recompute sendNow) := by
  rintro s _ ⟨d, rfl⟩
  rw [recompute_eq, recompute_eq]
  exact ⟨_, rfl⟩

theorem blind_writePmcIntr (v : Word) : Blind (writePmcIntr v) := by
  rintro s _ ⟨d, rfl⟩
  refine blind_recompute true ?_
  dsimp only
  split
  · exact ⟨_, rfl⟩
  · exact ⟨_, rfl⟩

theorem blind_writeStraps (a v : Word) : Blind (writeStraps a v) := by
  rintro s _ ⟨d, rfl⟩
  exact .ite ⟨_, rfl⟩ ⟨_, rfl⟩

theorem blind_computedRead (r : ComputedReg) : BlindRead (computedRead r) := by
  rintro s _ ⟨d, rfl⟩
  cases r with
  | pmcIntr =>
    refine ⟨blind_recompute false ⟨d, rfl⟩, ?_⟩
    simp only [computedRead, recompute_pmcIntr]
    rfl
  | _ => exact ⟨⟨d, rfl⟩, rfl⟩

theorem blind_computedWrite (r : ComputedReg) (a v : Word) : Blind (computedWrite r a v) := by
  rintro s _ ⟨d, rfl⟩
  cases r with
  | pmcIntr => exact blind_writePmcIntr v ⟨d, rfl⟩
  | pmcIntrEn => exact blind_recompute true ⟨d, rfl⟩
  | bankIntr b => exact blind_recompute true ⟨d, rfl⟩
  | bankIntrEn b => exact blind_recompute true ⟨d, rfl⟩
  | straps => exact blind_writeStraps a v ⟨d, rfl⟩
  | _ => exact ⟨d, rfl⟩

theorem blind_plainSet (p : PlainReg) (a v : Word) : Blind (State.plainSet · p a v) := by
  rintro s _ ⟨d, rfl⟩
  cases p <;> exact ⟨d, rfl⟩

theorem blind_kindRead (e : RegEntry) : BlindRead (kindRead e) := by
  intro s t h
  unfold kindRead
  cases e.kind with
  | plain p =>
    obtain ⟨d, rfl⟩ := h
    exact ⟨⟨d, rfl⟩, by cases p <;> rfl⟩
  | readOnly c => exact ⟨h, rfl⟩
  | computed r => exact blind_computedRead r h

theorem blind_kindWrite (e : RegEntry) (v : Word) : Blind (kindWrite e v) := by
  intro s t h
  unfold kindWrite
  cases e.kind with
  | plain p => exact blind_plainSet p _ _ h
  | readOnly c => exact h
  | computed r => exact blind_computedWrite r _ v h

theorem blind_entryRead (n : Width) (e : RegEntry) : BlindRead (entryRead n e) := by
  intro s t h
  obtain ⟨hstate, hvalue⟩ := blind_kindRead e h
  have value : entryValue n e t = entryValue n e s := congrArg (entryData n e) hvalue
  refine ⟨?_, value⟩
  simp only [entryRead, value]
  exact hstate.addDiag _ _ _ _

theorem blind_entryWrite (n : Width) (e : RegEntry) (v : Word) : Blind (entryWrite n e v) := fun _ _ h =>
  (blind_kindWrite e _ h).addDiag _ _ _ _

theorem blind_bankRead (n : Width) (a : Word) : BlindRead (bankRead n a) := by
  rintro s _ ⟨d, rfl⟩
  unfold bankRead
  dsimp only
  cases findEntry s.cfg.1.rtab a with
  | none => exact ⟨⟨_, rfl⟩, rfl⟩
  | some e => exact blind_entryRead n e ⟨d, rfl⟩

theorem blind_bankWrite (n : Width) (a v : Word) : Blind (bankWrite n a v) := by
  rintro s _ ⟨d, rfl⟩
  unfold bankWrite
  dsimp only
  cases findEntry s.cfg.1.rtab a with
  | none => exact ⟨_, rfl⟩
  | some e => exact blind_entryWrite n e v ⟨d, rfl⟩

/-! ### PCI bytes and memories -/

theorem blind_cfgWrite (off v : Byte) : Blind (cfgWrite off v) := by
  rintro s _ ⟨d, rfl⟩
  exact .ite ⟨d, rfl⟩ ⟨d, rfl⟩

theorem blind_mirrorWrite (o : Byte) (v : Word) : Blind (mirrorWrite o v) := fun _ _ h =>
  blind_cfgWrite _ _ (blind_cfgWrite _ _ (blind_cfgWrite _ _ (blind_cfgWrite _ _ h)))

theorem memRead_withDiag (s : State) (d : List DiagRecord) (sp : Space) (off : Nat) (n : Width) :
    State.memRead { s with diag := d } sp off n = s.memRead sp off n :=
  State.memRead_congr (State.byteAt_congr rfl rfl rfl rfl sp) n

theorem blind_setByte (sp : Space) (off : Nat) (v : Byte) : Blind (State.setByte · sp off v) := by
  rintro s _ ⟨d, rfl⟩
  cases sp <;> exact ⟨d, rfl⟩

theorem blind_memWrite (sp : Space) (off : Nat) (n : Width) (v : Word) : Blind (State.memWrite · sp off n v) := by
  intro s t h
  cases n with
  | b1 => exact blind_setByte _ _ _ h
  | b2 => exact blind_setByte _ _ _ (blind_setByte _ _ _ h)
  | b4 => exact blind_setByte _ _ _ (blind_setByte _ _ _ (blind_setByte _ _ _ (blind_setByte _ _ _ h)))

/-! ### The arbiter and the shim -/

theorem blind_regionRead (r : Region) (n : Width) (a : Word) : BlindRead (regionRead r n a) := by
  rintro s _ ⟨d, rfl⟩
  cases r with
  | bank b => exact blind_bankRead n a ⟨d, rfl⟩
  | pbusPci => exact ⟨⟨d, rfl⟩, rfl⟩
  | prom => exact ⟨⟨d, rfl⟩, memRead_withDiag s d _ _ _⟩
  | vram => exact ⟨⟨d, rfl⟩, memRead_withDiag s d _ _ _⟩
  | ramin => exact ⟨⟨d, rfl⟩, memRead_withDiag s d _ _ _⟩
  | user => exact ⟨⟨d, rfl⟩, rfl⟩

theorem blind_regionWrite (r : Region) (n : Width) (a v : Word) : Blind (regionWrite r n a v) := by
  rintro s _ ⟨d, rfl⟩
  cases r with
  | bank b => exact blind_bankWrite n a v ⟨d, rfl⟩
  | pbusPci => exact .ite (blind_cfgWrite _ _ ⟨d, rfl⟩) (blind_mirrorWrite _ _ ⟨d, rfl⟩)
  | prom => exact ⟨d, rfl⟩
  | vram => exact blind_memWrite _ _ _ _ ⟨d, rfl⟩
  | ramin => exact blind_memWrite _ _ _ _ ⟨d, rfl⟩
  | user => exact ⟨d, rfl⟩

theorem blind_softRead (a : Word) : BlindRead (softRead a) := fun _ _ h => ⟨h.addDiag _ _ _ _, rfl⟩

theorem blind_softWrite (a v : Word) : Blind (softWrite a v) := fun _ _ h => h.addDiag _ _ _ _

theorem blind_passRead (a : Word) : BlindRead (passRead a) := by
  rintro s _ ⟨d, rfl⟩
  unfold passRead
  dsimp only
  cases targetOf s.cfg.1 (alignAddr s.cfg.1 a) with
  | rmaMmio => exact blind_softRead _ ⟨d, rfl⟩
  | unmapped => exact blind_softRead _ ⟨d, rfl⟩
  | region r => exact blind_regionRead r _ _ ⟨d, rfl⟩

theorem blind_passWrite (a v : Word) : Blind (passWrite a v) := by
  rintro s _ ⟨d, rfl⟩
  unfold passWrite
  dsimp only
  cases targetOf s.cfg.1 (alignAddr s.cfg.1 a) with
  | rmaMmio => exact blind_softWrite _ v ⟨d, rfl⟩
  | unmapped => exact blind_softWrite _ v ⟨d, rfl⟩
  | region r => exact blind_regionWrite r _ _ v ⟨d, rfl⟩

theorem blind_rmaRead (off : Nat) : BlindRead (rmaRead off) := by
  rintro s _ ⟨d, rfl⟩
  have target : passTarget { s with diag := d } off = passTarget s off := rfl
  obtain ⟨hstate, hvalue⟩ := blind_passRead (passTarget s off) (s := s) ⟨d, rfl⟩
  simp only [rmaRead, target, hvalue]
  split
  · exact ⟨hstate, rfl⟩
  · split
    · exact ⟨⟨d, rfl⟩, rfl⟩
    · exact ⟨⟨d, rfl⟩, rfl⟩

theorem blind_rmaCommit : Blind rmaCommit := by
  rintro s _ ⟨d, rfl⟩
  obtain ⟨e, written⟩ := blind_passWrite s.rmaAddr s.rmaData (s := s) ⟨d, rfl⟩
  simp only [rmaCommit, written]
  exact .ite ⟨e, rfl⟩ ⟨e, rfl⟩

theorem blind_rmaWriteAddr (k : Nat) (v : Byte) : Blind (rmaWriteAddr k v) := by
  rintro s _ ⟨d, rfl⟩
  exact ⟨d, rfl⟩

theorem blind_rmaWriteData (k : Nat) (v : Byte) : Blind (rmaWriteData k v) := by
  rintro s _ ⟨d, rfl⟩
  exact .ite (blind_rmaCommit ⟨d, rfl⟩) ⟨d, rfl⟩

theorem blind_rmaWrite (off : Nat) (v : Byte) : Blind (rmaWrite off v) := fun _ _ h =>
  .ite (blind_rmaWriteAddr _ v h) (blind_rmaWriteData _ v h)

theorem blind_arbRead (a : Word) : BlindRead (arbRead a) := by
  rintro s _ ⟨d, rfl⟩
  unfold arbRead
  dsimp only
  cases targetOf s.cfg.1 (alignAddr s.cfg.1 a) with
  | rmaMmio =>
    obtain ⟨hstate, hvalue⟩ := blind_rmaRead (alignAddr s.cfg.1 a - rmaWindowLo s.cfg.1).toNat (s := s) ⟨d, rfl⟩
    exact ⟨hstate, congrArg (BitVec.setWidth 32) hvalue⟩
  | unmapped => exact blind_softRead _ ⟨d, rfl⟩
  | region r => exact blind_regionRead r _ _ ⟨d, rfl⟩

theorem blind_arbWrite (a v : Word) : Blind (arbWrite a v) := by
  rintro s _ ⟨d, rfl⟩
  unfold arbWrite
  dsimp only
  cases targetOf s.cfg.1 (alignAddr s.cfg.1 a) with
  | rmaMmio => exact blind_rmaWrite _ _ ⟨d, rfl⟩
  | unmapped => exact blind_softWrite _ v ⟨d, rfl⟩
  | region r => exact blind_regionWrite r _ _ v ⟨d, rfl⟩

theorem blind_read8 (a : Word) : BlindRead (read8 a) := by
  rintro s _ ⟨d, rfl⟩
  obtain ⟨hstate, hvalue⟩ := blind_arbRead a (s := s) ⟨d, rfl⟩
  simp only [read8, hvalue]
  split
  · exact ⟨hstate, rfl⟩
  · exact ⟨hstate, rfl⟩

theorem blind_read16 (a : Word) : BlindRead (read16 a) := by
  rintro s _ ⟨d, rfl⟩
  obtain ⟨hstate, hvalue⟩ := blind_arbRead a (s := s) ⟨d, rfl⟩
  simp only [read16, hvalue]
  split
  · exact ⟨hstate, rfl⟩
  · exact ⟨hstate, rfl⟩

theorem blind_write8 (a : Word) (v : Byte) : Blind (write8 a v) := by
  rintro s _ ⟨d, rfl⟩
  obtain ⟨hstate, hvalue⟩ := blind_arbRead a (s := s) ⟨d, rfl⟩
  simp only [write8, hvalue]
  exact .ite (blind_arbWrite _ _ ⟨d, rfl⟩) (blind_arbWrite _ _ hstate)

theorem blind_write16 (a : Word) (v : Half) : Blind (write16 a v) := by
  rintro s _ ⟨d, rfl⟩
  obtain ⟨hstate, hvalue⟩ := blind_arbRead a (s := s) ⟨d, rfl⟩
  simp only [write16, hvalue]
  exact .ite (blind_arbWrite _ _ ⟨d, rfl⟩) (blind_arbWrite _ _ hstate)

theorem blind_portIn (port : Half) : BlindRead (portIn port) := by
  rintro s _ ⟨d, rfl⟩
  unfold portIn
  dsimp only
  split
  · exact blind_rmaRead _ ⟨d, rfl⟩
  · exact ⟨⟨d, rfl⟩, rfl⟩

theorem blind_portOut (port : Half) (v : Byte) : Blind (portOut port v) := by
  rintro s _ ⟨d, rfl⟩
  exact .ite (blind_rmaWrite _ v ⟨d, rfl⟩) ⟨d, rfl⟩

/-! ### Timers -/

theorem blind_ptimerTick (elapsed : Nat) : Blind (ptimerTick elapsed) := by
  rintro s _ ⟨d, rfl⟩
  exact .ite ⟨d, rfl⟩ (.ite (blind_recompute true ⟨d, rfl⟩) ⟨d, rfl⟩)

theorem blind_mclkExpiry (elapsed : Nat) : Blind (mclkExpiry elapsed) := by
  rintro s _ ⟨d, rfl⟩
  exact .ite (blind_ptimerTick elapsed ⟨d, rfl⟩) ⟨d, rfl⟩

theorem blind_pclkExpiry : Blind pclkExpiry := by
  rintro s _ ⟨d, rfl⟩
  exact .ite ⟨d, rfl⟩ ⟨d, rfl⟩

/-! ### PGRAPH -/

theorem grobjFetch_withDiag (ctx : BitVec 28) (s : State) (d : List DiagRecord) :
    grobjFetch ctx { s with diag := d } = grobjFetch ctx s := by
  simp only [grobjFetch, memRead_withDiag]

theorem blind_pixel (g : Grobj) (x y : Nat) (src : Color) : Blind (pixel g x y src) := by
  rintro s _ ⟨d, rfl⟩
  unfold pixel
  simp only [memRead_withDiag]
  refine .ite (.ite ?_ ⟨d, rfl⟩) ⟨d, rfl⟩
  cases patternSelect s.pg x y with
  | none => exact ⟨d, rfl⟩
  | some pat => exact blind_memWrite _ _ _ _ ⟨d, rfl⟩

theorem blind_fillRow (g : Grobj) (x0 y : Nat) (src : Color) (w : Nat) : Blind (fillRow g x0 y src w) := by
  intro s t h
  induction w with
  | zero => exact h
  | succ w ih => exact blind_pixel _ _ _ _ ih

theorem blind_fillRect (g : Grobj) (x0 y0 w : Nat) (src : Color) (n : Nat) :
    Blind (fillRect g x0 y0 w src n) := by
  intro s t h
  induction n with
  | zero => exact h
  | succ n ih => exact blind_fillRow _ _ _ _ _ ih

theorem blind_runRequest (g : Grobj) (r : Request) : Blind (runRequest g r) := by
  intro s t h
  cases r with
  | pix x y src => exact blind_pixel g x y src h
  | raw off n v => exact blind_memWrite _ _ _ _ h

theorem blind_runRequests (g : Grobj) (reqs : List Request) : Blind (runRequests g reqs) := by
  intro s t h
  induction reqs generalizing s t with
  | nil => exact h
  | cons r rest ih => exact ih (blind_runRequest g r h)

theorem blind_betaHandler (c : MethodCall) : Blind (betaHandler c) := by
  rintro s _ ⟨d, rfl⟩
  exact .ite ⟨_, rfl⟩ ⟨_, rfl⟩

theorem blind_ropHandler (c : MethodCall) : Blind (ropHandler c) := by
  rintro s _ ⟨d, rfl⟩
  exact .ite ⟨_, rfl⟩ ⟨_, rfl⟩

theorem blind_chromaHandler (g : Grobj) (c : MethodCall) : Blind (chromaHandler g c) := by
  rintro s _ ⟨d, rfl⟩
  exact .ite ⟨_, rfl⟩ ⟨_, rfl⟩

theorem blind_planeHandler (c : MethodCall) : Blind (planeHandler c) := by
  rintro s _ ⟨d, rfl⟩
  exact .ite ⟨_, rfl⟩ ⟨_, rfl⟩

theorem blind_clipHandler (c : MethodCall) : Blind (clipHandler c) := by
  rintro s _ ⟨d, rfl⟩
  exact .ite ⟨_, rfl⟩ (.ite ⟨_, rfl⟩ ⟨_, rfl⟩)

theorem blind_patternHandler (g : Grobj) (c : MethodCall) : Blind (patternHandler g c) := by
  rintro s _ ⟨d, rfl⟩
  exact .ite ⟨_, rfl⟩ (.ite ⟨_, rfl⟩ (.ite ⟨_, rfl⟩ (.ite ⟨_, rfl⟩ (.ite ⟨_, rfl⟩ ⟨_, rfl⟩))))

theorem blind_rectHandler (g : Grobj) (c : MethodCall) : Blind (rectHandler g c) := by
  rintro s _ ⟨d, rfl⟩
  refine .ite ⟨_, rfl⟩ ?_
  dsimp only
  cases rectIndex s.cfg.1.methods.rectPoint c.m with
  | some i => exact ⟨_, rfl⟩
  | none =>
    cases rectIndex s.cfg.1.methods.rectSize c.m with
    | some i => exact blind_fillRect _ _ _ _ _ _ ⟨d, rfl⟩
    | none => exact ⟨_, rfl⟩

theorem rasterResult_withDiag (k : RasterClass) (g : Grobj) (c : MethodCall) (s : State) (d : List DiagRecord) :
    rasterResult k g c { s with diag := d } = rasterResult k g c s := rfl

theorem blind_blackBox (k : RasterClass) (g : Grobj) (c : MethodCall) : Blind (blackBox k g c) := by
  rintro s _ ⟨d, rfl⟩
  simp only [blackBox, rasterResult_withDiag]
  exact blind_runRequests g _ ⟨d, rfl⟩

theorem blind_runHandler (h : Handler) (g : Grobj) (c : MethodCall) : Blind (runHandler h g c) := by
  cases h with
  | beta => exact blind_betaHandler c
  | rop => exact blind_ropHandler c
  | chroma => exact blind_chromaHandler g c
  | plane => exact blind_planeHandler c
  | clip => exact blind_clipHandler c
  | pattern => exact blind_patternHandler g c
  | rect => exact blind_rectHandler g c
  | raster k => exact blind_blackBox k g c

theorem blind_notify (sub : Submission) : Blind (notify sub) := by
  rintro s _ ⟨d, rfl⟩
  unfold notify
  dsimp only
  split
  · exact ⟨d, rfl⟩
  · exact ⟨d, rfl⟩

theorem blind_genericMethod (sub : Submission) : Blind (genericMethod sub) := by
  rintro s _ ⟨d, rfl⟩
  exact blind_notify sub (.ite ⟨_, rfl⟩ ⟨_, rfl⟩)

theorem blind_classMethod (h : Handler) (sub : Submission) : Blind (classMethod h sub) := by
  rintro s _ ⟨d, rfl⟩
  simp only [classMethod, grobjFetch_withDiag]
  exact blind_notify sub (blind_runHandler h _ _ ⟨d, rfl⟩)

theorem blind_unknownClassMethod (cls : Word) (sub : Submission) : Blind (unknownClassMethod cls sub) := by
  rintro s _ ⟨d, rfl⟩
  unfold unknownClassMethod
  dsimp only
  cases s.cfg.1.unknownClassPolicy with
  | fatal => exact ⟨_, rfl⟩
  | logNoop => exact blind_notify sub ⟨_, rfl⟩

theorem blind_methodDispatch (cls : Word) (sub : Submission) : Blind (methodDispatch cls sub) := by
  rintro s _ ⟨d, rfl⟩
  refine .ite (blind_genericMethod sub ⟨d, rfl⟩) ?_
  dsimp only
  cases handlerOf s.cfg.1.classTab cls with
  | none => exact blind_unknownClassMethod cls sub ⟨d, rfl⟩
  | some h => exact blind_classMethod h sub ⟨d, rfl⟩

/-! ### Operations and decode cases -/

section

variable {s t : State}

/-- A RANGE case. -/
theorem sameOutcome_rangeAccess (r : Region) (a : BitVec 25) (acc : Access) (h : SameButDiag s t) :
    SameOutcome (rangeAccess r a acc s) (rangeAccess r a acc t) := by
  have ⟨d, eq⟩ := h
  subst eq
  cases acc with
  | read => exact h.outcome_read (blind_regionRead r (rangeWidth a s) (rangeAddr a s)) .u32
  | write v => exact h.outcome (blind_regionWrite r _ _ v h) .nothing

/-- The default RANGE case. -/
theorem sameOutcome_softAccess (a : BitVec 25) (acc : Access) (h : SameButDiag s t) :
    SameOutcome (softAccess a acc s) (softAccess a acc t) := by
  have ⟨d, eq⟩ := h
  subst eq
  cases acc with
  | read => exact h.outcome_read (blind_softRead (rangeAddr a s)) .u32
  | write v => exact h.outcome (blind_softWrite _ v h) .nothing

/-- A REG case: the entry is found in what the states share. -/
theorem sameOutcome_regAccess (e : RegEntry) (acc : Access) (h : SameButDiag s t) :
    SameOutcome (regAccess e acc s) (regAccess e acc t) := by
  have ⟨d, eq⟩ := h
  subst eq
  cases acc with
  | read => exact h.outcome_read (blind_entryRead (regWidth s.cfg.1 e) e) .u32
  | write v => exact h.outcome (blind_entryWrite _ e v h) .nothing

/-- The default REG case. -/
theorem sameOutcome_unimplAccess (a : Word) (acc : Access) (h : SameButDiag s t) :
    SameOutcome (unimplAccess a acc s) (unimplAccess a acc t) := by
  cases acc with
  | read => exact h.outcome (h.addDiag _ _ _ _) _
  | write v => exact h.outcome (h.addDiag _ _ _ _) _

/-- A METHOD case of a class with a handler. -/
theorem sameOutcome_classStep (k : Handler) (sub : Submission) (h : SameButDiag s t) :
    SameOutcome (classStep k sub s) (classStep k sub t) := by
  have ⟨d, eq⟩ := h
  subst eq
  exact h.outcome (blind_classMethod k _ h) .nothing

end

/-- An operation from two states that differ in `DIAG` alone. -/
theorem sameOutcome_exec (i : Instr) (s : State) (d : List DiagRecord) :
    SameOutcome (exec i s) (exec i { s with diag := d }) := by
  have h : SameButDiag s { s with diag := d } := ⟨d, rfl⟩
  cases i
  case mrd8 a => exact h.outcome_read (blind_read8 a) .u8
  case mrd16 a => exact h.outcome_read (blind_read16 a) .u16
  case mrd32 a => exact h.outcome_read (blind_arbRead a) .u32
  case mwr8 a v => exact h.outcome (blind_write8 a v h) _
  case mwr16 a v => exact h.outcome (blind_write16 a v h) _
  case mwr32 a v => exact h.outcome (blind_arbWrite a v h) _
  case iord8 port => exact h.outcome_read (blind_portIn port) .u8
  case iowr8 port v => exact h.outcome (blind_portOut port v h) _
  case cfgrd8 fn off => exact h.outcome h _
  case cfgwr8 fn off v => exact h.outcome (.ite (blind_cfgWrite off v h) h) _
  case lfbrd n off =>
    change SameOutcome (complete s s (replyOf n (s.memRead .vram off.toNat n))) _
    rw [← memRead_withDiag s d]
    exact h.outcome h _
  case lfbwr off v => exact h.outcome (blind_memWrite _ _ _ _ h) _
  case tickPclk => exact h.outcome (blind_pclkExpiry h) _
  case tickMclk elapsed => exact h.outcome (blind_mclkExpiry elapsed h) _
  case method cls sub => exact h.outcome (blind_methodDispatch _ _ h) _
  case raise b bits => exact h.outcome (blind_recompute true ⟨d, rfl⟩) _
  case swiRaise => exact h.outcome (blind_recompute true ⟨d, rfl⟩) _
  case reset =>
    intro t ht
    cases ht
    exact ⟨_, rfl, _, rfl⟩
  case rmaSetmode v => exact h.outcome ⟨d, rfl⟩ _
  case rangeNone a acc => exact sameOutcome_softAccess a acc h
  case rangePmc a acc | rangePbusPci a acc | rangePbus a acc | rangePfifo a acc | rangePtimer a acc
      | rangePfb a acc | rangePstraps a acc | rangeProm a acc | rangePme a acc | rangePgraph a acc
      | rangePvideo a acc | rangePramdac a acc | rangePramdacPalette a acc | rangeVram a acc
      | rangeUser a acc | rangeRamin a acc =>
    exact sameOutcome_rangeAccess _ a acc h
  case unimpl a acc => exact sameOutcome_unimplAccess _ acc h
  case pmcBoot acc | pmcIntr acc | pmcIntrEn acc | pmcEnable acc | pbusIntr acc | pbusIntrEn acc
      | pfifoIntr acc | pfifoIntrEn acc | ptimerIntr acc | ptimerIntrEn acc | ptimerNumerator acc
      | ptimerDenominator acc | ptimerTimeLo acc | ptimerTimeHi acc | ptimerAlarmLo acc | ptimerAlarmHi acc
      | pstrapsStraps acc | pmeIntr acc | pmeIntrEn acc | pgraphIntr acc | pgraphIntrEn acc | pvideoIntr acc
      | pvideoIntrEn acc | pramdacMpll acc | pramdacVpll acc | palByte0 acc | palByte1 acc | palByte2 acc
      | palByte3 acc =>
    exact sameOutcome_regAccess _ acc h
  case rmaRdSig off | rmaRdZero off | rmaRdPass off => exact h.outcome_read (blind_rmaRead off.toNat) .u8
  case rmaWrAddr off v => exact h.outcome (blind_rmaWriteAddr _ v h) _
  case rmaWrData off v => exact h.outcome (blind_rmaWriteData _ v h) _
  case mGeneric cls sub => exact h.outcome (blind_genericMethod _ h) _
  case mBeta sub | mRop sub | mChroma sub | mPlane sub | mClip sub | mPattern sub | mRect sub | mPoint sub
      | mLine sub | mTri sub | mGditext sub | mM2mf sub | mSifm sub | mBlit sub | mImage sub =>
    exact sameOutcome_classStep _ sub h
  case mUnknownClass cls sub => exact h.outcome (blind_unknownClassMethod _ _ h) _

/-- Settles O14: no function of the model reads `DIAG`, so the two runs differ in it alone. -/
theorem diagnosticTraceIsNeverRead : Obligations.DiagnosticTraceIsNeverRead := by
  intro i s t d h
  obtain ⟨u, hu, e, rfl⟩ := sameOutcome_exec i s d t h
  exact ⟨_, hu, rfl⟩

end Sys2Proof.Machine
end

section
/-! The 32-bit MMIO operations at a bank's addresses: the arbiter forwards them to the register table, whose
entry or whose miss answers (rules R109, R130, R190, R192). Under REFCFG-32 the walk of `AMAP` is the walk of
the opcode table's RANGE rows (rule R133). -/

namespace Sys2Proof.Machine

/-! ### Operations on a bank, under every configuration -/

section

variable {s : State} {b : Bank} {a : Word}

/-- At a register's own address the operation is the access to its entry (rule R190). -/
theorem exec_busOp_entry {e : RegEntry} (target : targetOf s.cfg.1 e.addr = .region (.bank b))
    (own : alignAddr s.cfg.1 e.addr = e.addr) (hit : findEntry s.cfg.1.rtab e.addr = some e) (acc : Access) :
    exec (busOp e.addr acc) s = regAccess e acc s := by
  cases acc with
  | read =>
    change complete s (arbRead e.addr s).1 (.u32 (arbRead e.addr s).2) = _
    simp only [arbRead, own, target, regionRead, bankRead, hit]
    rfl
  | write v =>
    change complete s (arbWrite e.addr v s) .nothing = _
    simp only [arbWrite, own, target, regionWrite, bankWrite, hit]
    rfl

/-- At an address of a bank that no entry has, the operation is the access to an unimplemented register
(rule R192). -/
theorem exec_busOp_unimpl (target : targetOf s.cfg.1 a = .region (.bank b)) (own : alignAddr s.cfg.1 a = a)
    (missing : findEntry s.cfg.1.rtab a = none) (acc : Access) :
    exec (busOp a acc) s = unimplAccess a acc s := by
  cases acc with
  | read =>
    change complete s (arbRead a s).1 (.u32 (arbRead a s).2) = _
    simp only [arbRead, own, target, regionRead, bankRead, missing]
    rfl
  | write v =>
    change complete s (arbWrite a v s) .nothing = _
    simp only [arbWrite, own, target, regionWrite, bankWrite, missing]
    rfl

end

/-- The lookup misses an address that no entry has. -/
theorem findEntry_eq_none {l : List RegEntry} {a : Word} (h : ∀ e ∈ l, e.addr ≠ a) : findEntry l a = none := by
  induction l with
  | nil => rfl
  | cons x xs ih =>
    rw [findEntry, if_neg (h x (by simp))]
    exact ih fun e he => h e (by simp [he])

/-! ### The REG rows -/

/-- The entry that a friendly name is looked up as. -/
def namedEntry (c : Cfg) (n : RegName) : RegEntry :=
  match n with
  | .pmcBoot => bootEntry c
  | .plain p => plainEntry c p
  | .computed r => computedEntry c r

/-- The REG rows are the entries of REFCFG's register table in order: a row's key is its entry's address, and
it is the access to the entry of that name (rule R109). -/
theorem regRows_entries :
    List.Forall₂ (fun p e => BitVec.ofNat 32 p.1 = e.addr ∧
      ∀ acc s, exec (p.2 acc) s = regAccess (namedEntry s.cfg.1 e.name) acc s) regRows refRtab := by
  unfold regRows refRtab
  repeat refine .cons ⟨rfl, fun _ _ => rfl⟩ ?_
  exact .nil

/-- In REFCFG every entry stands at an address of a bank, aligned in the window of either size, and is the one
its name and its address find. -/
theorem refCfg_entries :
    ∀ n ∈ [24, 25], ∀ e ∈ refRtab,
      targetOf (refCfgWith n) e.addr = .region (.bank e.bank) ∧ alignAddr (refCfgWith n) e.addr = e.addr ∧
      namedEntry (refCfgWith n) e.name = e ∧ findEntry refRtab e.addr = some e := by
  decide

/-- Each element of the first of two matched lists has its match in the second. -/
theorem exists_match_of_mem {α β : Type} {R : α → β → Prop} {l : List α} {m : List β} (h : List.Forall₂ R l m)
    {x : α} (hx : x ∈ l) : ∃ y ∈ m, R x y := by
  induction h with
  | nil => cases hx
  | cons r _ ih =>
    rcases List.mem_cons.1 hx with rfl | hx
    · exact ⟨_, by simp, r⟩
    · obtain ⟨y, hy, hr⟩ := ih hx
      exact ⟨y, by simp [hy], hr⟩

/-- Under REFCFG the operation at a register's address is its REG row. -/
theorem exec_busOp_regRow {s : State} {n : Nat} (hn : n ∈ [24, 25]) (hc : s.cfg.1 = refCfgWith n) (acc : Access)
    {p : Nat × (Access → Instr)} (hp : p ∈ regRows) :
    exec (busOp (BitVec.ofNat 32 p.1) acc) s = exec (p.2 acc) s := by
  obtain ⟨e, he, key, row⟩ := exists_match_of_mem regRows_entries hp
  obtain ⟨target, own, named, hit⟩ := refCfg_entries n hn e he
  have htab : s.cfg.1.rtab = refRtab := by rw [hc]; rfl
  rw [← hc] at target own named
  rw [row, named, key]
  exact exec_busOp_entry target own (htab ▸ hit) acc

/-! ### The walk of `AMAP` under the numbers of the opcode table -/

/-- A walk of `AMAP` whose entries are the table's rows, in the rows' order, finds the row's region. -/
theorem findRegion_eq_firstRow {rows : List (RangeRow × Nat × Nat)} {amap : List AmapEntry}
    (h : List.Forall₂ (fun row e => row.1.region = some e.region ∧ e.range.lo.toNat = row.2.1 ∧
      e.range.hi.toNat = row.2.2) rows amap) (a : Word) :
    findRegion amap a = (firstRow a.toNat rows).region := by
  induction h with
  | nil => rfl
  | @cons row e _ _ hrow _ ih =>
    obtain ⟨r, lo, hi⟩ := row
    obtain ⟨hr, rfl, rfl⟩ := hrow
    simp only [findRegion, firstRow, Range.has, BitVec.le_def, ih]
    split
    · exact hr.symm
    · rfl

/-- REFCFG's `AMAP` is the opcode table's RANGE rows (rules R6, R109). -/
theorem rangeRows_refAmap :
    List.Forall₂ (fun row e => row.1.region = some e.region ∧ e.range.lo.toNat = row.2.1 ∧
      e.range.hi.toNat = row.2.2) rangeRows refAmap := by
  unfold rangeRows refAmap
  repeat refine .cons ⟨rfl, rfl, rfl⟩ ?_
  exact .nil

/-- Clearing bits 1 and 0 rounds down to a multiple of 4. -/
theorem and_not_three_toNat (a : Word) : (a &&& ~~~(3 : Word)).toNat = a.toNat / 4 * 4 := by
  have high : ~~~(3 : Word) = BitVec.allOnes 32 <<< 2 := rfl
  have bits : a &&& (BitVec.allOnes 32 <<< 2) = (a >>> 2) <<< 2 := by
    ext i hi
    simp only [BitVec.getElem_and, BitVec.getElem_shiftLeft, BitVec.getElem_allOnes, BitVec.getElem_ushiftRight]
    by_cases low : i < 2
    · simp [low]
    · simp [low, show 2 + (i - 2) = i by omega, BitVec.getLsbD_eq_getElem hi]
  rw [high, bits, BitVec.toNat_shiftLeft, BitVec.toNat_ushiftRight, Nat.shiftRight_eq_div_pow, Nat.shiftLeft_eq]
  omega

/-- Under REFCFG-32 an address of 25 bits is aligned as the opcode table aligns it (rules R98, R131). -/
theorem alignAddr_refCfg32 (a : BitVec 25) :
    (alignAddr (refCfgWith 25) (a.setWidth 32)).toNat = refAlign a.toNat := by
  have toNat : (a.setWidth 32 : Word).toNat = a.toNat := by
    rw [BitVec.toNat_setWidth]; omega
  have masked : maskAddr (refCfgWith 25) (a.setWidth 32) = a.setWidth 32 := by
    refine BitVec.eq_of_toNat_eq ?_
    refine (lowBits_toNat (w := 25) (by decide) _).trans ?_
    rw [toNat]
    exact Nat.mod_eq_of_lt a.isLt
  have window : (refCfgWith 25).inByteWindow (a.setWidth 32) =
      (decide (0x6813C6 ≤ a.toNat) && decide (a.toNat ≤ 0x6813C9)) := by
    simp only [Cfg.inByteWindow, refCfgWith, Range.has, BitVec.le_def, toNat, List.any_cons, List.any_nil,
      Bool.or_false]
    rfl
  simp only [alignAddr, masked, window, refAlign]
  split
  · exact toNat
  · rw [and_not_three_toNat, toNat]

/-- Under REFCFG-32 an address of 25 bits goes where its RANGE row says (rules R109, R133). -/
theorem targetOf_refCfg32 (a : BitVec 25) :
    targetOf (refCfgWith 25) (alignAddr (refCfgWith 25) (a.setWidth 32)) =
      match (rangeRow a).region with
      | some g => .region g
      | none => .unmapped := by
  have walk : findRegion (refCfgWith 25).amap (alignAddr (refCfgWith 25) (a.setWidth 32)) =
      (rangeRow a).region := by
    rw [rangeRow, ← alignAddr_refCfg32]
    exact findRegion_eq_firstRow rangeRows_refAmap _
  simp only [targetOf, walk]
  rfl

/-- Under REFCFG-32 the operation at an address of a bank that is no register's is `UNIMPL`. -/
theorem exec_busOp_unimplAddr {s : State} {a : BitVec 25} (hc : s.cfg.1 = refCfgWith 25) (ha : unimplAddr a = true)
    (acc : Access) : exec (busOp (a.setWidth 32) acc) s = exec (.unimpl a acc) s := by
  simp only [unimplAddr, Bool.and_eq_true, decide_eq_true_eq, Bool.not_eq_true', List.any_eq_false,
    beq_iff_eq] at ha
  obtain ⟨⟨aligned, inBank⟩, noEntry⟩ := ha
  have own : alignAddr s.cfg.1 (a.setWidth 32) = a.setWidth 32 := by
    refine BitVec.eq_of_toNat_eq ?_
    rw [hc, alignAddr_refCfg32, aligned, BitVec.toNat_setWidth]
    omega
  have missing : findEntry s.cfg.1.rtab (a.setWidth 32) = none := by
    rw [hc]
    exact findEntry_eq_none noEntry
  have walk := targetOf_refCfg32 a
  rw [← hc, own] at walk
  split at inBank
  · rename_i b hb
    rw [hb] at walk
    exact exec_busOp_unimpl walk own missing acc
  · cases inBank

/-- Settles O18: the REG rows are the entries of the register table that their keys find, and an address of a bank
that is none of their keys misses the table. -/
theorem busOperationIsItsRegisterRow : Obligations.BusOperationIsItsRegisterRow := by
  refine ⟨fun s acc hcfg p hp => ?_, fun s a acc hcfg ha => ?_⟩
  · rcases hcfg with h | h
    · exact exec_busOp_regRow (n := 24) (by simp) (by rw [h]; rfl) acc hp
    · exact exec_busOp_regRow (n := 25) (by simp) (by rw [h]; rfl) acc hp
  · exact exec_busOp_unimplAddr (by rw [hcfg]; rfl) ha acc

end Sys2Proof.Machine
end

section
/-! What further fields the named updates of the state leave, and what every step keeps: an invariant is asked of
the elementary changes, of RESET, of the stop and of taking a frame, once for all operations. -/

namespace Sys2Proof.Machine

/-! ### `plainSet` -/

section

variable (s : State) (p : PlainReg) (a v : Word)

@[simp] theorem State.plainSet_intr : (s.plainSet p a v).intr = s.intr := by cases p <;> rfl
@[simp] theorem State.plainSet_intrEn : (s.plainSet p a v).intrEn = s.intrEn := by cases p <;> rfl
@[simp] theorem State.plainSet_pmcIntr : (s.plainSet p a v).pmcIntr = s.pmcIntr := by cases p <;> rfl
@[simp] theorem State.plainSet_pmcIntrEn : (s.plainSet p a v).pmcIntrEn = s.pmcIntrEn := by cases p <;> rfl
@[simp] theorem State.plainSet_irqLine : (s.plainSet p a v).irqLine = s.irqLine := by cases p <;> rfl
@[simp] theorem State.plainSet_ptimerAlarm : (s.plainSet p a v).ptimerAlarm = s.ptimerAlarm := by cases p <;> rfl
@[simp] theorem State.plainSet_vpll : (s.plainSet p a v).vpll = s.vpll := by cases p <;> rfl
@[simp] theorem State.plainSet_mpll : (s.plainSet p a v).mpll = s.mpll := by cases p <;> rfl
@[simp] theorem State.plainSet_pclk : (s.plainSet p a v).pclk = s.pclk := by cases p <;> rfl
@[simp] theorem State.plainSet_mclk : (s.plainSet p a v).mclk = s.mclk := by cases p <;> rfl
@[simp] theorem State.plainSet_notifyCtx : (s.plainSet p a v).notifyCtx = s.notifyCtx := by cases p <;> rfl
@[simp] theorem State.plainSet_pci : (s.plainSet p a v).pci = s.pci := by cases p <;> rfl
@[simp] theorem State.plainSet_diag : (s.plainSet p a v).diag = s.diag := by cases p <;> rfl
@[simp] theorem State.plainSet_events : (s.plainSet p a v).events = s.events := by cases p <;> rfl
@[simp] theorem State.plainSet_seq : (s.plainSet p a v).seq = s.seq := by cases p <;> rfl
@[simp] theorem State.plainSet_stream : (s.plainSet p a v).stream = s.stream := by cases p <;> rfl

end

/-! ### Invariants of the step -/

/-- What RESET, the elementary changes, the stop and the taking of a frame keep, every step keeps. -/
theorem step_keeps {P : State → Prop} (reset : ∀ s, P (resetState s)) (move : ∀ {s t}, Move s t → P s → P t)
    (stop : ∀ s, P s → P s.raiseFatal) (taken : ∀ s, P s → P s.taken) (passed : ∀ s, P s → P s.passedOver)
    {s t : State} (hs : P s) (h : step s = .next t) : P t := by
  rcases step_cases h with ⟨-, rfl⟩ | ⟨f, rest, i, -, -, hexec⟩ | ⟨f, rest, e, -, -, rfl⟩
  · exact hs
  · rcases exec_cases hexec with ⟨-, rfl⟩ | ⟨-, -, moves⟩ | ⟨-, -, cls, v, rfl⟩
    · exact reset _
    · exact moves.keep move (taken s hs)
    · exact move (.answer _ _) (stop _ (move (.log _ _ _ _ _) (taken s hs)))
  · exact passed s hs

end Sys2Proof.Machine
end

section
/-! The interrupt state (rules R26, R27, R170, R177, R181): a recompute establishes it for any state whose enables
are masked, and nothing else writes what it is about. -/

namespace Sys2Proof.Machine

/-- The interrupt state is the pairs, the aggregate, its enables and the line, under the configuration. -/
theorem State.intrOk_congr {s t : State} (hc : t.cfg = s.cfg) (hi : t.intr = s.intr) (hie : t.intrEn = s.intrEn)
    (hp : t.pmcIntr = s.pmcIntr) (hpe : t.pmcIntrEn = s.pmcIntrEn) (hl : t.irqLine = s.irqLine)
    (h : s.intrOk) : t.intrOk := by
  simpa only [State.intrOk, State.hwBits_congr hc hi hie, hc, hp, hpe, hl] using h

/-- A recompute that sends now makes the interrupt state consistent: it takes the aggregate from the pairs, and it
lowers the line with nothing pending or nothing enabled (rule R176). -/
theorem recompute_now_intrOk {s : State} (enables : s.pmcIntrEn &&& ~~~enMask s.cfg.1 = 0) :
    (recompute true s).intrOk := by
  refine ⟨?_, ?_, fun idle => ?_, fun disabled => ?_⟩
  · rw [recompute_pmcIntr, recompute_hwBits, aggregate_and_not_swBit]
  · rw [recompute_pmcIntrEn, recompute_cfg, enables]
  · rw [recompute_pmcIntr] at idle
    simp [lineAfter, idle]
  · rw [recompute_pmcIntrEn] at disabled
    simp [lineAfter, disabled]

/-- A read's recompute keeps the interrupt state: the aggregate is current, and the line can only be lowered. -/
theorem recompute_read_intrOk {s : State} (h : s.intrOk) : (recompute false s).intrOk := by
  obtain ⟨current, enables, idle, disabled⟩ := h
  have same : s.aggregate = s.pmcIntr := aggregate_of_current current
  have lowered : s.irqLine = false → (recompute false s).irqLine = false := fun low => by
    simp [lineAfter, low]
  refine ⟨?_, ?_, fun h0 => lowered (idle ?_), fun h0 => lowered (disabled ?_)⟩
  · rw [recompute_pmcIntr, recompute_hwBits, aggregate_and_not_swBit]
  · rw [recompute_pmcIntrEn, recompute_cfg, enables]
  · rwa [recompute_pmcIntr, same] at h0
  · rwa [recompute_pmcIntrEn] at h0

/-- The enables are stored under `EN_MASK` (rules R170, R174). -/
theorem and_enMask_and_not (v m : Word) : v &&& m &&& ~~~m = 0 := by
  rw [BitVec.and_assoc, BitVec.and_not_self]
  exact BitVec.and_zero

/-- An elementary change keeps the interrupt state: it ends in a recompute, or it leaves all of it. -/
theorem Move.intrOk {s t : State} (m : Move s t) (h : s.intrOk) : t.intrOk := by
  have ⟨_, enables, _, _⟩ := h
  cases m
  case readAggregate => exact recompute_read_intrOk h
  case aggregate v => exact recompute_now_intrOk enables
  case enable v => exact recompute_now_intrOk (and_enMask_and_not _ _)
  case pair b v => exact recompute_now_intrOk enables
  case pairEnable b v => exact recompute_now_intrOk enables
  all_goals exact State.intrOk_congr (by simp) (by simp) (by simp) (by simp) (by simp) (by simp) h

/-- With no bank pending the banks contribute nothing. -/
theorem State.hwBits_eq_zero {s : State} (h : ∀ b, s.bankPending b = false) : s.hwBits = 0 := by
  apply BitVec.eq_of_getLsbD_eq
  intro k _
  simp [hwBits_getLsbD, h]

/-- The reset values of the two pair files. -/
theorem initial_pairs (c : ValidCfg) (n : Nat) (b : IntrBank) :
    (State.initial c n).intrOf b = 0 ∧ (State.initial c n).intrEnOf b = 0 := by
  cases b <;> exact ⟨rfl, rfl⟩

theorem initial_intrOk (c : ValidCfg) (n : Nat) : (State.initial c n).intrOk := by
  have quiet (b : IntrBank) : (State.initial c n).bankPending b = false := by
    simp [State.bankPending, (initial_pairs c n b).1]
  refine ⟨?_, ?_, fun _ => rfl, fun _ => rfl⟩
  · rw [State.hwBits_eq_zero quiet]
    exact BitVec.zero_and
  · exact BitVec.zero_and

/-- Settles O8: every change of a pair, of the aggregate or of its enables ends in a recompute. -/
theorem everyStepKeepsTheInterruptState : Obligations.EveryStepKeepsTheInterruptState := by
  intro s t hs h
  exact step_keeps (fun s => State.intrOk_congr rfl rfl rfl rfl rfl rfl (initial_intrOk s.cfg (s.epoch + 1)))
    Move.intrOk
    (fun _ => State.intrOk_congr rfl rfl rfl rfl rfl rfl)
    (fun _ => State.intrOk_congr rfl rfl rfl rfl rfl rfl)
    (fun _ => State.intrOk_congr rfl rfl rfl rfl rfl rfl) hs h

end Sys2Proof.Machine
end

section
/-! The PCI bytes and the timer periods: the one store of a PCI byte is above the ids and masks the hardwired bits
(rules R301, R302), and a divider register is written together with the period synthesised from it (rules R231,
R232). -/

namespace Sys2Proof.Machine

/-! ### PCI bytes -/

/-- The PCI byte after a store into one. -/
theorem State.pciByte_setPci (s : State) (off v o : Byte) :
    (s.setPci off v).pciByte o = if o = off then v else s.pciByte o := by
  simp only [State.pciByte, State.setPci_pci, Vector.getElem_set, BitVec.toNat_inj, eq_comm]

/-- Masking the hardwired bits of a BAR twice masks them once (rule R302). -/
theorem cfgStored_cfgStored (c : Cfg) (off v : Byte) : cfgStored c off (cfgStored c off v) = cfgStored c off v := by
  unfold cfgStored
  split
  · rw [BitVec.and_assoc, BitVec.and_self]
  · split
    · rw [BitVec.and_assoc, BitVec.and_self]
    · rfl

/-- What a BAR stores of 0 is 0. -/
theorem cfgStored_zero (c : Cfg) (off : Byte) : cfgStored c off 0 = 0 := by
  unfold cfgStored
  split
  · exact BitVec.zero_and
  · split
    · exact BitVec.zero_and
    · rfl

/-- The PCI bytes' form is that of the file under the configuration. -/
theorem State.pciOk_congr {s t : State} (hc : t.cfg = s.cfg) (hp : t.pci = s.pci) (h : s.pciOk) : t.pciOk := by
  simpa only [State.pciOk, State.pciByte, hc, hp] using h

/-- A store above the ids, less the hardwired bits, keeps the form (rule R302). -/
theorem State.pciOk_setPci {s : State} {off : Byte} (above : ¬ off ≤ 0x03) (v : Byte) (h : s.pciOk) :
    (s.setPci off (cfgStored s.cfg.1 off v)).pciOk := by
  obtain ⟨ids, bars⟩ := h
  refine ⟨fun o ho => ?_, fun o lo hi => ?_⟩
  · rw [State.pciByte_setPci, if_neg (fun same : o = off => above (same ▸ ho)), State.setPci_cfg]
    exact ids o ho
  · rw [State.pciByte_setPci, State.setPci_cfg]
    split
    · rename_i same
      rw [same, cfgStored_cfgStored]
    · exact bars o lo hi

/-- An elementary change keeps the form: it is a store above the ids, or it leaves the file. -/
theorem Move.pciOk {s t : State} (m : Move s t) (h : s.pciOk) : t.pciOk := by
  cases m
  case pci off v above => exact State.pciOk_setPci above v h
  all_goals exact State.pciOk_congr (by simp) (by simp) h

/-- The reset values of the PCI bytes: the two ids, low byte first, and 0 (rule R43). -/
theorem initial_pciByte (c : ValidCfg) (n : Nat) (off : Byte) :
    (State.initial c n).pciByte off =
      if off = 0 then c.1.pciVendorId.extractLsb' 0 8
      else if off = 1 then c.1.pciVendorId.extractLsb' 8 8
      else if off = 2 then c.1.pciDeviceId.extractLsb' 0 8
      else if off = 3 then c.1.pciDeviceId.extractLsb' 8 8 else 0 := by
  have low (w : Half) : w.setWidth 8 = w.extractLsb' 0 8 := by ext; simp
  have high (w : Half) : (w >>> 8).setWidth 8 = w.extractLsb' 8 8 := by ext; simp
  have apart (k : Nat) (h : off ≠ BitVec.ofNat 8 k) : k ≠ off.toNat := fun same => h (by simp [same])
  split_ifs with h0 h1 h2 h3
  · subst h0; exact low _
  · subst h1; exact high _
  · subst h2; exact low _
  · subst h3; exact high _
  · change (resetPci c.1)[off.toNat]'off.isLt = 0
    rw [resetPci, Vector.getElem_set_ne _ _ (apart 3 h3), Vector.getElem_set_ne _ _ (apart 2 h2),
      Vector.getElem_set_ne _ _ (apart 1 h1), Vector.getElem_set_ne _ _ (apart 0 h0), Vector.getElem_replicate]

theorem initial_pciOk (c : ValidCfg) (n : Nat) : (State.initial c n).pciOk := by
  refine ⟨fun off _ => rfl, fun off lo _ => ?_⟩
  have noId (k : Byte) (hk : k < 0x10) : off ≠ k := fun same => BitVec.not_le.2 hk (same ▸ lo)
  have rest : (State.initial c n).pciByte off = 0 := by
    rw [initial_pciByte, if_neg (noId 0 (by decide)), if_neg (noId 1 (by decide)), if_neg (noId 2 (by decide)),
      if_neg (noId 3 (by decide))]
  rw [rest, cfgStored_zero]

/-! ### Timer periods -/

/-- The timers' form is that of the dividers and the timers under the configuration. -/
theorem State.clocksOk_congr {s t : State} (hc : t.cfg = s.cfg) (hv : t.vpll = s.vpll) (hm : t.mpll = s.mpll)
    (hp : t.pclk = s.pclk) (hq : t.mclk = s.mclk) (h : s.clocksOk) : t.clocksOk := by
  simpa only [State.clocksOk, hc, hv, hm, hp, hq] using h

/-- An elementary change keeps the periods: a divider is written with its own timer's period (rules R231, R232),
and nothing else writes a divider or a timer. -/
theorem Move.clocksOk {s t : State} (m : Move s t) (h : s.clocksOk) : t.clocksOk := by
  obtain ⟨pixel, memory⟩ := h
  cases m
  case vpll v => exact ⟨fun _ => rfl, memory⟩
  case mpll v => exact ⟨pixel, fun _ => rfl⟩
  all_goals exact State.clocksOk_congr (by simp) (by simp) (by simp) (by simp) (by simp) ⟨pixel, memory⟩

/-- After RESET no timer is armed (rule R38). -/
theorem initial_clocksOk (c : ValidCfg) (n : Nat) : (State.initial c n).clocksOk := by
  refine ⟨fun armed => ?_, fun armed => ?_⟩
  · cases armed
  · cases armed

/-- Settles O10: the two forms are kept by each elementary change. -/
theorem everyStepKeepsThePciBytesAndTimerPeriods : Obligations.EveryStepKeepsThePciBytesAndTimerPeriods := by
  refine ⟨fun s t hs h => ?_, fun s t hs h => ?_⟩
  · exact step_keeps (fun s => State.pciOk_congr rfl rfl (initial_pciOk s.cfg (s.epoch + 1))) Move.pciOk
      (fun _ => State.pciOk_congr rfl rfl) (fun _ => State.pciOk_congr rfl rfl)
      (fun _ => State.pciOk_congr rfl rfl) hs h
  · exact step_keeps
      (fun s => State.clocksOk_congr rfl rfl rfl rfl rfl (initial_clocksOk s.cfg (s.epoch + 1))) Move.clocksOk
      (fun _ => State.clocksOk_congr rfl rfl rfl rfl rfl) (fun _ => State.clocksOk_congr rfl rfl rfl rfl rfl)
      (fun _ => State.clocksOk_congr rfl rfl rfl rfl rfl) hs h

end Sys2Proof.Machine
end

section
/-! The stop, the parameter record and the stream: what each operation does to them (rules R21, R22, R30, R326). -/

namespace Sys2Proof.Machine

/-! ### The stop -/

/-- A class that has no handler has no entry in `CLASS_TAB` (rule R9). -/
theorem ne_of_handlerOf_eq_none {tab : List (Word × Handler)} {cls : Word} (h : handlerOf tab cls = none) :
    ∀ p ∈ tab, p.1 ≠ cls := by
  induction tab with
  | nil => simp
  | cons q rest ih =>
    unfold handlerOf at h
    split at h
    · cases h
    · rename_i hq
      exact List.forall_mem_cons.2 ⟨hq, ih h⟩

/-- Settles O7: elementary changes and RESET raise no stop, so the operation was a method with an unknown class. -/
theorem onlyAnUnknownClassStopsTheBlock : Obligations.OnlyAnUnknownClassStopsTheBlock := by
  intro i s t h stopped
  rcases exec_cases h with ⟨-, rfl⟩ | ⟨running, -, moves⟩ | ⟨-, ⟨policy, cause⟩, -⟩
  · cases stopped
  · rw [moves.fatal, running] at stopped
    cases stopped
  · refine ⟨policy, ?_⟩
    rcases cause with ⟨cls, sub, rfl, specific, unknown⟩ | ⟨cls, sub, rfl⟩
    · refine ⟨cls, sub, .inl ⟨rfl, ?_, fun p hp same => ?_⟩⟩
      · rw [← narrowSub_m]
        exact BitVec.not_lt.1 specific
      · rw [← narrowClass_toNat] at same
        exact ne_of_handlerOf_eq_none unknown p hp (BitVec.eq_of_toNat_eq same)
    · exact ⟨cls, sub, .inr rfl⟩

/-- Every operation but RESET completes with some state and reply, unless the block is stopped (rule R30). -/
theorem exec_eq_complete {i : Instr} (hi : i ≠ .reset) (s : State) : ∃ t r, exec i s = complete s t r := by
  cases i
  case reset => exact absurd rfl hi
  case rangePmc a acc | rangePbusPci a acc | rangePbus a acc | rangePfifo a acc | rangePtimer a acc
      | rangePfb a acc | rangePstraps a acc | rangeProm a acc | rangePme a acc | rangePgraph a acc
      | rangePvideo a acc | rangePramdac a acc | rangePramdacPalette a acc | rangeVram a acc
      | rangeUser a acc | rangeRamin a acc | rangeNone a acc | unimpl a acc =>
    cases acc <;> exact ⟨_, _, rfl⟩
  case pmcBoot acc | pmcIntr acc | pmcIntrEn acc | pmcEnable acc | pbusIntr acc | pbusIntrEn acc
      | pfifoIntr acc | pfifoIntrEn acc | ptimerIntr acc | ptimerIntrEn acc | ptimerNumerator acc
      | ptimerDenominator acc | ptimerTimeLo acc | ptimerTimeHi acc | ptimerAlarmLo acc | ptimerAlarmHi acc
      | pstrapsStraps acc | pmeIntr acc | pmeIntrEn acc | pgraphIntr acc | pgraphIntrEn acc | pvideoIntr acc
      | pvideoIntrEn acc | pramdacMpll acc | pramdacVpll acc | palByte0 acc | palByte1 acc | palByte2 acc
      | palByte3 acc =>
    cases acc <;> exact ⟨_, _, rfl⟩
  all_goals exact ⟨_, _, rfl⟩

/-- Settles O5: every operation but RESET goes through `complete`, which has no step in a stopped block. -/
theorem stoppedBlockTakesOnlyReset : Obligations.StoppedBlockTakesOnlyReset := by
  refine ⟨fun i s stopped hi => ?_, fun s => ⟨resetState s, rfl, rfl⟩⟩
  obtain ⟨t, r, completes⟩ := exec_eq_complete hi s
  rw [completes, complete_stopped stopped]

/-! ### The parameter record and the stream -/

/-- What stands outside the block: the parameter record, the frames to come, the count of operations. -/
def State.outside (s : State) : ValidCfg × List OpFrame × Nat := (s.cfg, s.stream, s.seq)

/-- No elementary change touches what stands outside the block. -/
theorem Moves.outside {s t : State} (h : Moves s t) : t.outside = s.outside := by
  refine Moves.same (f := State.outside) (fun m => ?_) h
  cases m <;> simp [State.outside]

/-- No operation touches what stands outside the block (rules R21, R22; RESET: log entry 13). -/
theorem exec_outside {i : Instr} {s t : State} (h : exec i s = .next t) : t.outside = s.outside := by
  rcases exec_cases h with ⟨-, rfl⟩ | ⟨-, -, moves⟩ | ⟨-, -, cls, v, rfl⟩
  · rfl
  · exact moves.outside
  · rfl

/-- Settles O12: the step takes the frame and counts it if it decodes, and the operation touches neither. -/
theorem configurationNeverChanges : Obligations.ConfigurationNeverChanges := by
  intro s t h
  rcases step_cases h with ⟨idle, rfl⟩ | ⟨f, rest, i, first, decodes, hexec⟩ | ⟨f, rest, e, first, refused, rfl⟩
  · exact ⟨rfl, fun f rest first => by simp [idle] at first⟩
  · have same := exec_outside hexec
    simp only [State.outside, Prod.mk.injEq, State.taken_cfg, State.taken_stream, State.taken_seq, first,
      List.tail_cons] at same
    obtain ⟨cfg, stream, seq⟩ := same
    refine ⟨cfg, fun g tail eq => ?_⟩
    rw [first] at eq
    cases eq
    exact ⟨stream, fun _ _ => seq, fun e refused => by simp [decodes] at refused⟩
  · refine ⟨rfl, fun g tail eq => ?_⟩
    rw [first] at eq
    cases eq
    exact ⟨by simp [first], fun i decodes => by simp [refused] at decodes, fun _ _ => rfl⟩

/-- A word of the opcode table that is read as an operation is the frame that decodes to it. -/
theorem decode_tableFrame {n w : Nat} {i : Instr} (h : decodeTableWord n w = some i) :
    decode (tableFrame n w) = .ok i := by
  unfold decodeTableWord at h
  split at h
  · rename_i j hj
    cases h
    exact hj
  · cases h

/-- Settles O4: the three things a step can do, by what is presented. -/
theorem stepRunsTheDecodedOperation : Obligations.StepRunsTheDecodedOperation := by
  refine ⟨fun s f rest i first decodes => ?_, fun s n w i reads => ?_, fun s idle => step_idle idle,
    fun s f rest e first refused => ?_⟩
  · rw [step_runs first decodes, State.taken, first, List.tail_cons]
  · exact step_runs (s := s.withFetchWord n w) rfl (decode_tableFrame reads)
  · rw [step_passes first refused, State.passedOver, first, List.tail_cons]

end Sys2Proof.Machine
end

section
/-! What only RESET takes back (rules R47, R48, R233, R234, R242, R282, R362): an order of the states that every
elementary change goes up. -/

namespace Sys2Proof.Machine

/-- The later state holds every alarm bit, every record and event, the notifier and the armed timers of the
earlier one. -/
structure State.Grows (s t : State) : Prop where
  alarm : s.ptimerAlarm &&& t.ptimerAlarm = s.ptimerAlarm
  diag : s.diag <+: t.diag
  events : s.events <+: t.events
  notifier : s.notifyCtx ≠ none → t.notifyCtx ≠ none
  pclk : s.pclk.armed = true → t.pclk.armed = true
  mclk : s.mclk.armed = true → t.mclk.armed = true

/-- The fields that the order is about. -/
def State.lasting (s : State) : DWord × List DiagRecord × List Event × Option Word × ClockTimer × ClockTimer :=
  (s.ptimerAlarm, s.diag, s.events, s.notifyCtx, s.pclk, s.mclk)

theorem State.Grows.of_lasting_eq {s t : State} (h : t.lasting = s.lasting) : s.Grows t := by
  simp only [State.lasting, Prod.mk.injEq] at h
  obtain ⟨alarm, diag, events, notifier, pclk, mclk⟩ := h
  exact ⟨by rw [alarm, BitVec.and_self], by rw [diag], by rw [events], by rw [notifier]; exact id,
    by rw [pclk]; exact id, by rw [mclk]; exact id⟩

theorem State.Grows.trans {s t u : State} (h : s.Grows t) (k : t.Grows u) : s.Grows u where
  alarm := by rw [← h.alarm, BitVec.and_assoc, k.alarm]
  diag := h.diag.trans k.diag
  events := h.events.trans k.events
  notifier := k.notifier ∘ h.notifier
  pclk := k.pclk ∘ h.pclk
  mclk := k.mclk ∘ h.mclk

/-- Bits ORed in leave the ones that were set (rule R241). -/
theorem and_or_self_dword (a v : DWord) : a &&& (a ||| v) = a := by
  ext k hk
  simp only [BitVec.getElem_and, BitVec.getElem_or]
  cases a[k] <;> simp

theorem State.grows_addDiag (s : State) (k : DiagKind) (a v : Word) (n : DiagName) : s.Grows (s.addDiag k a v n) :=
  { State.Grows.of_lasting_eq (s := s) rfl with diag := List.prefix_append _ _ }

/-- A recompute at most logs the suppressed case (rule R176). -/
theorem State.Grows.recompute {s t : State} (h : s.Grows t) (b : Bool) : s.Grows (recompute b t) := by
  rw [recompute_eq]
  exact h.trans { State.Grows.of_lasting_eq (s := t) rfl with diag := List.prefix_append _ _ }

/-- An elementary change takes nothing back. -/
theorem Move.grows {s t : State} (m : Move s t) : s.Grows t := by
  cases m
  case log k a v n => exact s.grows_addDiag k a v n
  case event e => exact { State.Grows.of_lasting_eq (s := s) rfl with events := List.prefix_append _ _ }
  case alarm v => exact { State.Grows.of_lasting_eq (s := s) rfl with alarm := and_or_self_dword _ v }
  case vpll v => exact { State.Grows.of_lasting_eq (s := s) rfl with pclk := fun _ => rfl }
  case mpll v => exact { State.Grows.of_lasting_eq (s := s) rfl with mclk := fun _ => rfl }
  case notifyCtx c => exact { State.Grows.of_lasting_eq (s := s) rfl with notifier := fun _ => nofun }
  case readAggregate | aggregate | enable | pair | pairEnable =>
    refine State.Grows.recompute ?_ _
    exact .of_lasting_eq rfl
  all_goals exact .of_lasting_eq (by simp [State.lasting])

theorem Moves.grows {s t : State} (h : Moves s t) : s.Grows t :=
  h.keep (P := s.Grows) (fun m g => g.trans m.grows) (.of_lasting_eq rfl)

/-- An operation other than RESET takes nothing back; the stop only adds its record. -/
theorem exec_grows {i : Instr} {s t : State} (hi : i ≠ .reset) (h : exec i s = .next t) : s.Grows t := by
  rcases exec_cases h with ⟨rfl, -⟩ | ⟨-, -, moves⟩ | ⟨-, -, cls, v, rfl⟩
  · exact absurd rfl hi
  · exact moves.grows
  · exact (s.grows_addDiag _ _ _ _).trans (.of_lasting_eq rfl)

/-- Settles O13: an operation other than RESET goes up in the order. -/
theorem whatOnlyResetTakesBack : Obligations.WhatOnlyResetTakesBack := by
  intro i s t hi h
  have grows := exec_grows hi h
  obtain ⟨records, hrecords⟩ := grows.diag
  obtain ⟨events, hevents⟩ := grows.events
  exact ⟨grows.alarm, ⟨records, hrecords.symm⟩, ⟨events, hevents.symm⟩, grows.notifier, grows.pclk, grows.mclk⟩

end Sys2Proof.Machine
end

section
/-! The state after RESET (rules R50, R350): it meets the invariant, and each cell of a `Plain` register holds the
reset value of the register's entry. -/

namespace Sys2Proof.Machine

/-- Settles O11: each part of the invariant holds of the reset values, under every configuration. -/
theorem resetSatisfiesTheInvariant : Obligations.ResetSatisfiesTheInvariant := by
  have initial (c : ValidCfg) (n : Nat) : (State.initial c n).Inv :=
    ⟨State.memOk_of_empty rfl rfl, initial_intrOk c n, initial_pciOk c n, initial_clocksOk c n⟩
  exact ⟨initial, initial refCfg32 0⟩

/-- The entries of a valid configuration's register table differ pairwise (rule R195). -/
theorem rtab_pairsOk (c : ValidCfg) : pairsOk entryPairOk c.1.rtab = true := by
  obtain ⟨-, pairs, -⟩ := rtab_ok c
  exact pairs

/-- The reset value looked up for a register of rule R7 is its entry's: the table holds one of that name
(rule R195). -/
theorem plainReset_of_mem {l : List RegEntry} (hp : pairsOk entryPairOk l = true) {p : PlainReg}
    (required : RegName.plain p ∈ requiredRegs) {e : RegEntry} (he : e ∈ l) (hn : e.name = .plain p) :
    plainReset l p = e.reset := by
  induction l with
  | nil => cases he
  | cons x xs ih =>
    simp only [pairsOk, entryPairOk, Bool.and_eq_true, List.all_eq_true, decide_eq_true_eq] at hp
    obtain ⟨apart, rest⟩ := hp
    unfold plainReset
    rcases List.mem_cons.1 he with rfl | he
    · rw [if_pos (kind_of_name.1 p hn)]
    · have other : x.kind ≠ .plain p := fun hk => by
        have hx : x.name = .plain p := by simp [RegEntry.name, hk]
        simpa [hx, hn, required] using (apart e he).2
      rw [if_neg other, ih rest he]

/-- An added register's cell holds its entry's reset value: no two entries have one address (rule R195). -/
theorem extraGet_extraReset {l : List RegEntry} (hp : pairsOk entryPairOk l = true) {k : Nat} {e : RegEntry}
    (he : e ∈ l) (hn : e.name = .plain (.extra k)) : extraGet (extraReset l) e.addr = e.reset := by
  induction l with
  | nil => cases he
  | cons x xs ih =>
    simp only [pairsOk, entryPairOk, Bool.and_eq_true, List.all_eq_true, decide_eq_true_eq] at hp
    obtain ⟨apart, rest⟩ := hp
    rcases List.mem_cons.1 he with rfl | he
    · simp [extraReset, kind_of_name.1 _ hn, extraGet]
    · have later := ih rest he
      unfold extraReset
      split
      · rw [extraGet, if_neg (apart e he).1, later]
      · exact later

/-- The reset value of a named `Plain` register under a valid configuration. -/
theorem plainReset_eq (c : ValidCfg) {p : PlainReg} (required : RegName.plain p ∈ requiredRegs) {e : RegEntry}
    (he : e ∈ c.1.rtab) (hn : e.name = .plain p) : plainReset c.1.rtab p = e.reset :=
  plainReset_of_mem (rtab_pairsOk c) required he hn

/-- The three `Plain` registers of 32 bits after RESET (rules R28, R34). -/
theorem initial_plainGet (c : ValidCfg) (n : Nat) {p : PlainReg}
    (hp : p ∈ [PlainReg.pmcEnable, .ptimerNumerator, .ptimerDenominator]) {e : RegEntry} (he : e ∈ c.1.rtab)
    (hn : e.name = .plain p) : (State.initial c n).plainGet p e.addr = e.reset := by
  simp only [List.mem_cons, List.not_mem_nil, or_false] at hp
  rcases hp with rfl | rfl | rfl
  · exact plainReset_eq c (by decide) he hn
  · exact plainReset_eq c (by decide) he hn
  · exact plainReset_eq c (by decide) he hn

/-- The palette bytes after RESET (rule R39). -/
theorem initial_pal (c : ValidCfg) (n : Nat) (k : BitVec 2) {e : RegEntry} (he : e ∈ c.1.rtab)
    (hn : e.name = .plain (.pal k)) : (State.initial c n).pal[k.toNat] = e.reset.setWidth 8 := by
  have cell : (State.initial c n).pal[k.toNat] = (plainReset c.1.rtab (.pal k)).setWidth 8 := by
    match k with
    | 0#2 => rfl
    | 1#2 => rfl
    | 2#2 => rfl
    | 3#2 => rfl
  have required : ∀ j, RegName.plain (.pal j) ∈ requiredRegs := by decide
  rw [cell, plainReset_eq c (required k) he hn]

/-- Every index of RECT's points is at 0 after RESET (rule R41). -/
theorem resetPgraph_points (i : Fin 16) : resetPgraph.rectX[i] = 0 ∧ resetPgraph.rectY[i] = 0 := by
  simp [resetPgraph]

/-- Every colour of the rendering state is of zero fields after RESET (rule R41). -/
theorem resetPgraph_colors :
    ∀ c ∈ [resetPgraph.chroma, resetPgraph.patColor0, resetPgraph.patColor1, resetPgraph.rectColor],
      c.a = 0 ∧ c.r = 0 ∧ c.g = 0 ∧ c.b = 0 := by
  simp [resetPgraph, zeroColor]

/-- Settles O60: RESET answers the reset state of the next number, whose fields are the reset values. -/
theorem resetGivesEveryResetValue : Obligations.ResetGivesEveryResetValue := by
  intro s
  refine ⟨resetState s, rfl, initial_pairs s.cfg (s.epoch + 1), rfl, rfl, rfl, rfl, rfl, rfl, rfl, rfl, rfl, rfl,
    rfl, rfl, rfl, rfl, fun p e hp he hn => initial_plainGet s.cfg (s.epoch + 1) hp he hn,
    fun k e he hn => initial_pal s.cfg (s.epoch + 1) k he hn,
    fun k e he hn => extraGet_extraReset (rtab_pairsOk s.cfg) he hn,
    rfl, rfl, rfl, rfl, rfl, rfl, rfl, rfl, rfl, rfl, resetPgraph_colors, resetPgraph_points, rfl,
    initial_pciByte s.cfg (s.epoch + 1), fun k => rfl, fun k => rfl, ?_, rfl, rfl, rfl⟩
  exact Nat.succ_ne_self s.epoch

end Sys2Proof.Machine
end

section
/-! Every operation completes (rules R70, R152, R384), and which operation a host memory access is (rules R72,
R305). -/

namespace Sys2Proof.Machine

/-- Settles O6: RESET answers its reset state, and every other operation goes through `complete`. -/
theorem everyOperationCompletes : Obligations.EveryOperationCompletes := by
  intro i s running
  by_cases hi : i = .reset
  · exact ⟨resetState s, by rw [hi]; rfl⟩
  · obtain ⟨t, r, completes⟩ := exec_eq_complete hi s
    exact ⟨t.answer r, completes.trans (complete_next running t r)⟩

/-! ### The windows (rule R305) -/

/-- The BAR0 window holds a physical address: the memory-space enable is set and the address is in range. -/
def State.inMmioWindow (s : State) (h : Word) : Prop :=
  mapMmio s ∧ (mmioBase s).toNat ≤ h.toNat ∧ h.toNat < (mmioBase s).toNat + mmioSize s.cfg.1

/-- The BAR1 window holds a physical address. -/
def State.inLfbWindow (s : State) (h : Word) : Prop :=
  mapLfb s ∧ (lfbBase s).toNat ≤ h.toNat ∧ h.toNat < (lfbBase s).toNat + s.cfg.1.vramSize

/-- The BAR0 window takes the accesses it holds. -/
theorem hostRoute_mmio {s : State} {h : Word} (inMmio : s.inMmioWindow h) :
    hostRoute s h = .mmio (h - mmioBase s) :=
  if_pos inMmio

/-- The BAR1 window takes those that the BAR0 window does not hold. -/
theorem hostRoute_lfb {s : State} {h : Word} (notMmio : ¬ s.inMmioWindow h) (inLfb : s.inLfbWindow h) :
    hostRoute s h = .lfb (h - lfbBase s) :=
  (if_neg notMmio).trans (if_pos inLfb)

/-- What neither window holds is the platform's. -/
theorem hostRoute_platform {s : State} {h : Word} (notMmio : ¬ s.inMmioWindow h) (notLfb : ¬ s.inLfbWindow h) :
    hostRoute s h = .platform :=
  (if_neg notMmio).trans (if_neg notLfb)

/-- Settles O58: the two windows are the conditions of the route, in its order, and each route gives its own
operation for each width. -/
theorem hostAccessIsRoutedByTheWindows : Obligations.HostAccessIsRoutedByTheWindows := by
  intro s h base lfb x n inMmio inLfb hbase hlfb mmioIff lfbIff
  have baseEq : base = mmioBase s := hbase
  have lfbEq : lfb = lfbBase s := hlfb
  subst baseEq lfbEq
  have mmio : inMmio ↔ s.inMmioWindow h := mmioIff
  have lin : inLfb ↔ s.inLfbWindow h := lfbIff
  rw [mmio, lin]
  refine ⟨fun hit => ?_, fun miss hit => ?_, fun miss missLfb => ?_⟩
  · simp [hostOperation, hostRoute_mmio hit]
  · simp [hostOperation, hostRoute_lfb miss hit]
  · simp [hostOperation, hostRoute_platform miss missLfb]

end Sys2Proof.Machine
end

section
/-! A lane of a word (rules R61, R108), the accesses of one and two bytes outside a byte window (rules R142, R143),
and that the arbiter reads no reply. -/

namespace Sys2Proof.Machine

/-! ### Lanes of a word -/

/-- Bit `i` of byte `k` of a word. -/
theorem byteOf_getLsbD (v : Word) (k i : Nat) : (byteOf v k).getLsbD i = (decide (i < 8) && v.getLsbD (8 * k + i)) := by
  simp [byteOf, BitVec.getLsbD_setWidth]

/-- A mask of the low bits of a word: bit `i` of `2 ^ w - 1`. -/
theorem setWidth_allOnes_getLsbD {w i : Nat} (hw : w ≤ 32) :
    ((BitVec.allOnes w).setWidth 32 : Word).getLsbD i = decide (i < w) := by
  simp [BitVec.getLsbD_setWidth]
  omega

/-- A field put into a word at bit `s`: the field's bits there, the word's elsewhere. -/
theorem insert_getLsbD {w : Nat} (hw : w ≤ 32) (d : Word) (x : BitVec w) (s : Nat) {i : Nat} (hi : i < 32) :
    (d &&& ~~~((BitVec.allOnes w).setWidth 32 <<< s) ||| x.setWidth 32 <<< s).getLsbD i =
      if s ≤ i ∧ i < s + w then x.getLsbD (i - s) else d.getLsbD i := by
  simp only [BitVec.getLsbD_or, BitVec.getLsbD_and, BitVec.getLsbD_not, BitVec.getLsbD_shiftLeft,
    setWidth_allOnes_getLsbD hw, BitVec.getLsbD_setWidth, hi]
  by_cases below : i < s
  · simp [below, show ¬ s ≤ i by omega]
  · by_cases above : i < s + w
    · simp [below, show s ≤ i by omega, above, show i - s < w by omega, show i - s < 32 by omega]
    · simp [below, above, show ¬ i - s < w by omega, BitVec.getLsbD_of_ge x (i - s) (by omega)]

/-- Bits of a word with lane `k` replaced. -/
theorem setLane_getLsbD (d : Word) (k : Nat) (v : Byte) {i : Nat} (hi : i < 32) :
    (setLane d k v).getLsbD i = if 8 * k ≤ i ∧ i < 8 * k + 8 then v.getLsbD (i - 8 * k) else d.getLsbD i :=
  insert_getLsbD (w := 8) (by decide) d v (8 * k) hi

/-- Replacing a lane replaces that byte and no other (rules R108, R143). -/
theorem byteOf_setLane (d : Word) (k : Nat) (v : Byte) {j : Nat} (hj : j < 4) :
    byteOf (setLane d k v) j = if j = k then v else byteOf d j := by
  refine BitVec.eq_of_getLsbD_eq fun i hi => ?_
  rw [byteOf_getLsbD, setLane_getLsbD d k v (by omega)]
  by_cases same : j = k
  · subst same
    simp [hi]
  · rw [if_neg (by omega), if_neg same, byteOf_getLsbD]

/-- The low two bits of an address are its lane (rule R64). -/
theorem laneShift_eq (a : Word) : laneShift a = 8 * (a.toNat % 4) := by
  have low : (a &&& 3).toNat = a.toNat % 4 := by
    rw [BitVec.toNat_and]
    exact Nat.and_two_pow_sub_one_eq_mod _ 2
  rw [laneShift, low]

/-- One byte is merged into its lane (rule R143). -/
theorem merge8_eq_setLane (a d : Word) (v : Byte) : merge8 a d v = setLane d (a.toNat % 4) v := by
  rw [merge8, laneShift_eq, setLane]

/-- Two bytes are merged into the lane and the one above it; above lane 3 there is none, and the high byte is
lost (rule R143). -/
theorem merge16_eq_setLane (a d : Word) (v : Half) :
    merge16 a d v = setLane (setLane d (a.toNat % 4) (v.setWidth 8)) (a.toNat % 4 + 1) ((v >>> 8).setWidth 8) := by
  refine BitVec.eq_of_getLsbD_eq fun i hi => ?_
  rw [merge16, laneShift_eq, setLane_getLsbD _ _ _ hi, setLane_getLsbD _ _ _ hi]
  refine (insert_getLsbD (w := 16) (by decide) d v _ hi).trans ?_
  generalize a.toNat % 4 = k
  by_cases high : 8 * (k + 1) ≤ i ∧ i < 8 * (k + 1) + 8
  · have bit : 8 + (i - 8 * (k + 1)) = i - 8 * k := by omega
    rw [if_pos (by omega), if_pos high]
    simp [bit, show i - 8 * (k + 1) < 8 by omega]
  · rw [if_neg high]
    by_cases low : 8 * k ≤ i ∧ i < 8 * k + 8
    · rw [if_pos (by omega), if_pos low]
      simp [show i - 8 * k < 8 by omega]
    · rw [if_neg (by omega), if_neg low]

/-- A word shifted down by its lane and cut off is its quotient by the lane's weight (rule R142). -/
theorem setWidth_lane (w : Nat) (a d : Word) :
    (d >>> laneShift a).setWidth w = BitVec.ofNat w (d.toNat / 2 ^ (8 * (a.toNat % 4))) := by
  refine BitVec.eq_of_toNat_eq ?_
  rw [laneShift_eq, BitVec.toNat_setWidth, BitVec.toNat_ushiftRight, Nat.shiftRight_eq_div_pow, BitVec.toNat_ofNat]

/-! ### The reply is read by no write -/

theorem rmaCommit_answer (s : State) (r : Reply) : rmaCommit (s.answer r) = (rmaCommit s).answer r := by
  have pass : passWrite (s.answer r).rmaAddr (s.answer r).rmaData (s.answer r) =
      (passWrite s.rmaAddr s.rmaData s).answer r := passWrite_answer _ _ s r
  simp only [rmaCommit, pass, State.answer_rmaMode, State.answer_cfg]
  split <;> rfl

theorem rmaWrite_answer (off : Nat) (v : Byte) (s : State) (r : Reply) :
    rmaWrite off v (s.answer r) = (rmaWrite off v s).answer r := by
  unfold rmaWrite rmaWriteData
  split
  · rfl
  · split
    · exact rmaCommit_answer { s with rmaData := setLane s.rmaData (off % 4) v } r
    · rfl

theorem arbWrite_answer (a v : Word) (s : State) (r : Reply) :
    arbWrite a v (s.answer r) = (arbWrite a v s).answer r := by
  simp only [arbWrite, State.answer_cfg]
  split
  · exact rmaWrite_answer _ _ s r
  · rfl
  · exact regionWrite_answer _ _ _ v s r

/-! ### Narrow accesses outside a byte window (rules R142, R143) -/

/-- The state a 32-bit read leaves. -/
def afterRead (a : Word) (s : State) : State := (arbRead a s).1.answer (.u32 (arbRead a s).2)

/-- A 32-bit read is the arbiter's (rule R140). -/
theorem exec_mrd32 {s : State} (running : s.fatal = false) (a : Word) : exec (.mrd32 a) s = .next (afterRead a s) :=
  complete_next running _ _

/-- A write after a 32-bit read is the write from the state that the arbiter's read left (rule R143). -/
theorem exec_mwr32_afterRead {s : State} (running : s.fatal = false) (a m : Word) :
    exec (.mwr32 a m) (afterRead a s) = complete s (arbWrite a m (arbRead a s).1) .nothing := by
  have running' : (afterRead a s).fatal = false := (moves_arbRead a s).fatal.trans running
  have completes : exec (.mwr32 a m) (afterRead a s) = .next ((arbWrite a m (afterRead a s)).answer .nothing) :=
    complete_next running' _ _
  rw [completes, complete_next running, afterRead, arbWrite_answer, State.answer_answer]

section

variable {s : State} {a : Word} (outside : s.cfg.1.inByteWindow (maskAddr s.cfg.1 a) = false)

include outside

theorem read8_outside : read8 a s = ((arbRead a s).1, sub8 a (arbRead a s).2) := by
  simp [read8, narrowInWindow, outside]

theorem read16_outside : read16 a s = ((arbRead a s).1, sub16 a (arbRead a s).2) := by
  simp [read16, narrowInWindow, outside]

theorem write8_outside (v : Byte) : write8 a v s = arbWrite a (merge8 a (arbRead a s).2 v) (arbRead a s).1 := by
  simp [write8, narrowInWindow, outside]

theorem write16_outside (v : Half) : write16 a v s = arbWrite a (merge16 a (arbRead a s).2 v) (arbRead a s).1 := by
  simp [write16, narrowInWindow, outside]

end

/-- Settles O19: the read is the arbiter's and its lane is a quotient; the write merges lanes into what that read
answered, and the reply that the read leaves is read by no write. -/
theorem narrowAccessIsALaneOfTheDword : Obligations.NarrowAccessIsALaneOfTheDword := by
  intro s a v w k running hk outside
  subst hk
  refine ⟨afterRead a s, (arbRead a s).2, merge8 a (arbRead a s).2 v, merge16 a (arbRead a s).2 w,
    exec_mrd32 running a, rfl, ?read8, ?read16, fun j hj => ?merged8, fun j hj => ?merged16, ?write8, ?write16⟩
  case read8 =>
    change complete s (read8 a s).1 (.u8 (read8 a s).2) = _
    rw [complete_next running, read8_outside outside, sub8, setWidth_lane]
    rfl
  case read16 =>
    change complete s (read16 a s).1 (.u16 (read16 a s).2) = _
    rw [complete_next running, read16_outside outside, sub16, setWidth_lane]
    rfl
  case merged8 => rw [merge8_eq_setLane, byteOf_setLane _ _ _ hj]
  case merged16 =>
    rw [merge16_eq_setLane, byteOf_setLane _ _ _ hj, byteOf_setLane _ _ _ hj]
    by_cases lane : j = a.toNat % 4
    · rw [if_neg (by omega), if_pos lane, if_pos lane]
    · rw [if_neg lane, if_neg lane]
  case write8 =>
    rw [exec_mwr32_afterRead running, ← write8_outside outside]
    rfl
  case write16 =>
    rw [exec_mwr32_afterRead running, ← write16_outside outside]
    rfl

end Sys2Proof.Machine
end

section
/-! Read after write in the byte arrays, by bytes and by words (rules R12, R61, R66), the writes of the RANGE rows
of VRAM and RAMIN (rules R147, R148), and the grobj that a write of RAMIN leaves (rule R261). -/

namespace Sys2Proof.Machine

/-! ### Bytes after a write -/

/-- No reply is in a byte array. -/
@[simp] theorem State.byteAt_answer (s : State) (r : Reply) (sp : Space) (k : Nat) :
    (s.answer r).byteAt sp k = s.byteAt sp k :=
  State.byteAt_congr rfl rfl rfl rfl sp k

section

variable (s : State) {sp : Space} (hp : sp ≠ .prom) (off : Nat) (n : Width) (v : Word)

include hp

/-- Byte `i` of a written value stands at its offset, unless a later byte falls on the same one. -/
theorem State.byteAt_memWrite_hit {i k : Nat} (hi : i < n.bytes)
    (last : ∀ j, i < j → j < n.bytes → (off + j) % s.arraySize sp ≠ (off + i) % s.arraySize sp)
    (hk : k % s.arraySize sp = (off + i) % s.arraySize sp) : (s.memWrite sp off n v).byteAt sp k = byteOf v i := by
  have four : n.bytes ≤ 4 := by cases n <;> decide
  have later (j : Nat) (hj : i < j) : ¬ (j < n.bytes ∧ (off + j) % s.arraySize sp = (off + i) % s.arraySize sp) :=
    fun ⟨inside, same⟩ => last j hj inside same
  rw [State.byteAt_memWrite s sp off n v k hp, hk]
  match i with
  | 0 => rw [if_neg (later 3 (by decide)), if_neg (later 2 (by decide)), if_neg (later 1 (by decide))]; exact if_pos rfl
  | 1 => rw [if_neg (later 3 (by decide)), if_neg (later 2 (by decide)), if_pos ⟨hi, rfl⟩]
  | 2 => rw [if_neg (later 3 (by decide)), if_pos ⟨hi, rfl⟩]
  | 3 => rw [if_pos ⟨hi, rfl⟩]
  | i + 4 => omega

/-- A write leaves every byte that none of its own falls on. -/
theorem State.byteAt_memWrite_miss {k : Nat}
    (miss : ∀ i, i < n.bytes → k % s.arraySize sp ≠ (off + i) % s.arraySize sp) :
    (s.memWrite sp off n v).byteAt sp k = s.byteAt sp k := by
  have first : 0 < n.bytes := by cases n <;> decide
  have apart (i : Nat) : ¬ (i < n.bytes ∧ (off + i) % s.arraySize sp = k % s.arraySize sp) :=
    fun ⟨inside, same⟩ => miss i inside same.symm
  rw [State.byteAt_memWrite s sp off n v k hp, if_neg (apart 3), if_neg (apart 2), if_neg (apart 1)]
  exact if_neg fun same => apart 0 ⟨first, same⟩

/-- What a write does to the bytes of its array: its own stand at their offsets, the last where two fall on one, and
every other is left. -/
theorem State.bytes_after_memWrite :
    (∀ i k, i < n.bytes →
      (∀ j, i < j → j < n.bytes → (off + j) % s.arraySize sp ≠ (off + i) % s.arraySize sp) →
      k % s.arraySize sp = (off + i) % s.arraySize sp → (s.memWrite sp off n v).byteAt sp k = byteOf v i) ∧
    ∀ k, (∀ i, i < n.bytes → k % s.arraySize sp ≠ (off + i) % s.arraySize sp) →
      (s.memWrite sp off n v).byteAt sp k = s.byteAt sp k :=
  ⟨fun _ _ hi last hk => s.byteAt_memWrite_hit hp off n v hi last hk,
    fun _ miss => s.byteAt_memWrite_miss hp off n v miss⟩

end

/-! ### Words after a write -/

/-- A word is its four bytes, least significant first (rule R61). -/
theorem wordOf_byteOf (v : Word) : wordOf (byteOf v 0) (byteOf v 1) (byteOf v 2) (byteOf v 3) = v := by
  refine BitVec.eq_of_getLsbD_eq fun i hi => ?_
  simp only [wordOf, BitVec.getLsbD_append, byteOf_getLsbD]
  by_cases h0 : i < 8
  · simp [h0]
  · by_cases h1 : i < 16
    · simp [h0, show i - 8 < 8 by omega, show 8 + (i - 8) = i by omega]
    · by_cases h2 : i < 24
      · simp [h0, show ¬ i - 8 < 8 by omega, show i - 8 - 8 < 8 by omega, show 16 + (i - 8 - 8) = i by omega]
      · simp [h0, show ¬ i - 8 < 8 by omega, show ¬ i - 8 - 8 < 8 by omega, show i - 8 - 8 - 8 < 8 by omega,
          show 24 + (i - 8 - 8 - 8) = i by omega]

section

variable {s : State} {sp : Space} (hp : sp ≠ .prom) {off off' : Nat} (v : Word)

include hp

/-- A word read where one was written, inside the array, is that word. -/
theorem State.memRead_memWrite_same (inside : off + 4 ≤ s.arraySize sp) :
    (s.memWrite sp off .b4 v).memRead sp off .b4 = v := by
  have bytes (i : Nat) (hi : i < 4) : (s.memWrite sp off .b4 v).byteAt sp (off + i) = byteOf v i := by
    refine State.byteAt_memWrite_hit s hp off .b4 v hi (fun j above hj => ?_) rfl
    have inBytes : j < 4 := hj
    rw [Nat.mod_eq_of_lt (by omega), Nat.mod_eq_of_lt (by omega)]
    omega
  rw [State.memRead, bytes 1 (by decide), bytes 2 (by decide), bytes 3 (by decide)]
  exact (congrArg (wordOf · _ _ _) (bytes 0 (by decide))).trans (wordOf_byteOf v)

/-- A word read apart from a written one, both inside the array, is what it was. -/
theorem State.memRead_memWrite_apart (inside : off + 4 ≤ s.arraySize sp) (inside' : off' + 4 ≤ s.arraySize sp)
    (apart : off + 4 ≤ off' ∨ off' + 4 ≤ off) :
    (s.memWrite sp off .b4 v).memRead sp off' .b4 = s.memRead sp off' .b4 := by
  have bytes (i : Nat) (hi : i < 4) : (s.memWrite sp off .b4 v).byteAt sp (off' + i) = s.byteAt sp (off' + i) := by
    refine State.byteAt_memWrite_miss s hp off .b4 v fun j hj => ?_
    have inBytes : j < 4 := hj
    rw [Nat.mod_eq_of_lt (by omega), Nat.mod_eq_of_lt (by omega)]
    omega
  rw [State.memRead, bytes 1 (by decide), bytes 2 (by decide), bytes 3 (by decide)]
  exact congrArg (wordOf · _ _ _) (bytes 0 (by decide))

end

/-! ### The RANGE rows of VRAM and RAMIN -/

/-- An access touches one byte inside a byte window and four outside (rules R131, R144). -/
theorem accessWidth_bytes (c : Cfg) (a : Word) :
    (accessWidth c a).bytes = if c.inByteWindow (maskAddr c a) then 1 else 4 := by
  unfold accessWidth
  split <;> rfl

/-- Settles O22: a write of PROM stores nothing; one of VRAM or RAMIN is a write of the array at the address less
the low end, of one byte or of four. -/
theorem memoryTargetWritesFourBytes : Obligations.MemoryTargetWritesFourBytes := by
  intro s a v n running hn
  have bytes : (rangeWidth a s).bytes = n := (accessWidth_bytes _ _).trans hn.symm
  subst bytes
  refine ⟨complete_next running s .nothing, fun o ho => ?vram, fun o ho => ?ramin⟩
  case vram =>
    subst ho
    exact ⟨_, complete_next running _ .nothing,
      congrArg (State.answer · .nothing) (s.memWrite_vram_frame _ _ v),
      s.bytes_after_memWrite (sp := .vram) (by decide) _ _ v⟩
  case ramin =>
    subst ho
    exact ⟨_, complete_next running _ .nothing,
      congrArg (State.answer · .nothing) (s.memWrite_ramin_frame _ _ v),
      s.bytes_after_memWrite (sp := .ramin) (by decide) _ _ v⟩

/-! ### A grobj after a write of RAMIN -/

/-- Word `k` of a grobj is the word at its place in RAMIN (rule R261). -/
theorem grobjWord_grobjFetch (ctx : BitVec 28) (s : State) (k : BitVec 2) :
    grobjWord (grobjFetch ctx s) k = s.memRead .ramin (ctx.toNat * 16 + 4 * k.toNat) .b4 := by
  match k with
  | 0#2 => rfl
  | 1#2 => rfl
  | 2#2 => rfl
  | 3#2 => rfl

/-- The opcode table aligns a multiple of 4 to itself. -/
theorem refAlign_of_aligned {a : Nat} (aligned : a % 4 = 0) : refAlign a = a := by
  unfold refAlign
  split
  · rfl
  · omega

/-- The walk of the RANGE rows passes the rows that end below the address. -/
theorem firstRow_append_of_above {a : Nat} {rows : List (RangeRow × Nat × Nat)} (h : ∀ p ∈ rows, p.2.2 < a)
    (rest : List (RangeRow × Nat × Nat)) : firstRow a (rows ++ rest) = firstRow a rest := by
  induction rows with
  | nil => rfl
  | cons p rows ih =>
    obtain ⟨r, lo, hi⟩ := p
    have above : hi < a := h (r, lo, hi) (by simp)
    rw [List.cons_append, firstRow, if_neg (by simp; omega), ih fun p hp => h p (by simp [hp])]

/-- A dword at or above RAMIN's low end is RAMIN's RANGE row, the last of the opcode table. -/
theorem rangeRow_ramin {a : BitVec 25} (above : 0x1C00000 ≤ a.toNat) (aligned : a.toNat % 4 = 0) :
    rangeRow a = .ramin := by
  have below := a.isLt
  have rows : rangeRows = rangeRows.dropLast ++ [(.ramin, 0x1C00000, 0x1FFFFFF)] := rfl
  have ends : ∀ p ∈ rangeRows.dropLast, p.2.2 < 0x1C00000 := by decide
  rw [rangeRow, refAlign_of_aligned aligned, rows, firstRow_append_of_above fun p hp => (ends p hp).trans_le above]
  exact if_pos (by simp; omega)

/-- Above the palette's there is no byte window in REFCFG-32 (rule R132). -/
theorem inByteWindow_refCfg32 {a : BitVec 25} (above : 0x6813C9 < a.toNat) :
    (refCfgWith 25).inByteWindow (maskAddr (refCfgWith 25) (a.setWidth 32)) = false := by
  have masked : (maskAddr (refCfgWith 25) (a.setWidth 32)).toNat = a.toNat := by
    refine (lowBits_toNat (w := 25) (by decide) _).trans ?_
    rw [BitVec.toNat_setWidth]
    omega
  generalize maskAddr (refCfgWith 25) (a.setWidth 32) = x at masked ⊢
  simp [Cfg.inByteWindow, refCfgWith, Range.has, BitVec.le_def]
  omega

/-- Under REFCFG-32 a 32-bit write of a dword of RAMIN's range stores it at its place in RAMIN (rules R141, R148). -/
theorem exec_mwr32_ramin {s : State} (running : s.fatal = false) (hc : s.cfg = refCfg32) {a : BitVec 25}
    (above : 0x1C00000 ≤ a.toNat) (aligned : a.toNat % 4 = 0) (v : Word) :
    exec (.mwr32 (a.setWidth 32) v) s = .next ((s.memWrite .ramin (a.toNat - 0x1C00000) .b4 v).answer .nothing) := by
  have cfg : s.cfg.1 = refCfgWith 25 := by rw [hc]; rfl
  have target : targetOf (refCfgWith 25) (alignAddr (refCfgWith 25) (a.setWidth 32)) = .region .ramin := by
    rw [targetOf_refCfg32, rangeRow_ramin above aligned]
    rfl
  have width : accessWidth (refCfgWith 25) (a.setWidth 32) = .b4 :=
    accessWidth_word (inByteWindow_refCfg32 (by omega))
  have own : (alignAddr (refCfgWith 25) (a.setWidth 32)).toNat = a.toNat := by
    rw [alignAddr_refCfg32, refAlign_of_aligned aligned]
  have offset : regionOff (refCfgWith 25) .ramin (alignAddr (refCfgWith 25) (a.setWidth 32)) = a.toNat - 0x1C00000 := by
    have low : regionLo (refCfgWith 25).amap .ramin = 0x1C00000 := by decide
    rw [regionOff, low, BitVec.toNat_sub_of_le (by rw [BitVec.le_def, own]; exact above), own]
    rfl
  have stores : arbWrite (a.setWidth 32) v s = s.memWrite .ramin (a.toNat - 0x1C00000) .b4 v := by
    simp only [arbWrite, cfg, target, width, regionWrite, offset]
  rw [← stores]
  exact complete_next running _ _

/-- Settles O55: the store is a dword of RAMIN, and each word of the grobj is that dword or lies apart from it. -/
theorem grobjIsReadFreshFromRamin : Obligations.GrobjIsReadFreshFromRamin := by
  intro s ctx j v running hc hctx
  have address : (BitVec.ofNat 32 (0x1C00000 + 16 * ctx.toNat + 4 * j.toNat)) =
      (BitVec.ofNat 25 (0x1C00000 + 16 * ctx.toNat + 4 * j.toNat)).setWidth 32 := by
    refine BitVec.eq_of_toNat_eq ?_
    simp
    omega
  have place : (BitVec.ofNat 25 (0x1C00000 + 16 * ctx.toNat + 4 * j.toNat)).toNat =
      0x1C00000 + (ctx.toNat * 16 + 4 * j.toNat) := by
    simp
    omega
  have size : s.arraySize .ramin = 0x100000 := by rw [State.arraySize, hc]; rfl
  rw [address, exec_mwr32_ramin running hc (by omega) (by omega), place, Nat.add_sub_cancel_left]
  refine ⟨_, rfl, fun k => ?_⟩
  rw [grobjWord_grobjFetch, grobjWord_grobjFetch, State.memRead_congr (State.byteAt_answer _ _ _)]
  split
  · rename_i same
    subst same
    exact State.memRead_memWrite_same (by decide) v (by omega)
  · rename_i other
    have places : k.toNat ≠ j.toNat := fun same => other (BitVec.eq_of_toNat_eq same)
    exact State.memRead_memWrite_apart (by decide) v (by omega) (by omega) (by omega)

end Sys2Proof.Machine
end

section
/-! The encoder and the decoder (rules R90, R109), part by part: a frame is a key with its operands above it, and
each part of the decoder reads from the frame that the matching part of the encoder writes exactly what was put
there, and accepts no other frame but that one. Every field is a digit of the word in a mixed base, so what a
field holds is arithmetic. -/

namespace Sys2Proof

/-! ### Fields -/

/-- A field of a word, as a number. -/
@[simp] theorem bitsAt_toNat (n lo w : Nat) : (bitsAt n lo w).toNat = w / 2 ^ lo % 2 ^ n := by
  simp [bitsAt]

/-- A field that holds an operand's number is the operand. -/
theorem bitsAt_eq {n lo w : Nat} {v : BitVec n} (h : w / 2 ^ lo % 2 ^ n = v.toNat) : bitsAt n lo w = v :=
  BitVec.eq_of_toNat_eq ((bitsAt_toNat n lo w).trans h)

/-- A word is taken as an instruction of a length exactly when it has no bit above it. -/
theorem fits_eq_ok_iff {len w : Nat} {i j : Instr} : fits len w i = .ok j ↔ w < 2 ^ len ∧ i = j := by
  have short : w / 2 ^ len = 0 ↔ w < 2 ^ len := by
    rw [Nat.div_eq_zero_iff, or_iff_right (Nat.two_pow_pos len).ne']
  unfold fits
  split
  · rename_i h
    simp [short.1 h]
  · rename_i h
    simp [mt short.2 h]

/-- The access operand is read exactly where it is encoded above bit 32 of a word. -/
theorem accessAt_eq_ok_iff {w : Nat} {k : Access → Instr} {i : Instr} :
    accessAt 32 w k = .ok i ↔ ∃ acc, w / 2 ^ 32 = encAccess acc ∧ k acc = i := by
  constructor
  · intro h
    unfold accessAt at h
    split at h
    · rename_i direction
      obtain ⟨short, rfl⟩ := fits_eq_ok_iff.1 h
      exact ⟨.read, by simp only [encAccess]; omega, rfl⟩
    · rename_i direction
      obtain ⟨short, rfl⟩ := fits_eq_ok_iff.1 h
      exact ⟨.write _, by simp only [encAccess, bitsAt_toNat]; omega, rfl⟩
    · cases h
  · rintro ⟨acc, above, rfl⟩
    cases acc with
    | read =>
      simp only [encAccess] at above
      simp only [accessAt, above]
      exact fits_eq_ok_iff.2 ⟨by omega, rfl⟩
    | write v =>
      have := v.isLt
      simp only [encAccess] at above
      have direction : w / 2 ^ 32 % 256 = 1 := by omega
      simp only [accessAt, direction]
      exact fits_eq_ok_iff.2 ⟨by omega, by rw [bitsAt_eq (v := v) (by omega)]⟩

/-! ### Method submissions -/

/-- The submission's word has 156 bits. -/
theorem encSubmission_lt (base : Nat) (s : Submission) : encSubmission base s < 2 ^ 156 := by
  have := s.ch.isLt
  have := s.sc.isLt
  have := s.m.isLt
  have := s.ctx.isLt
  have := s.param.isLt
  unfold encSubmission
  omega

/-- A submission from bit `lo` up is one from bit 0 of the word above. -/
theorem submissionAt_above (base lo w : Nat) : submissionAt base lo w = submissionAt base 0 (w / 2 ^ lo) := by
  simp only [submissionAt, bitsAt, Nat.zero_add, Nat.pow_zero, Nat.div_one, Nat.div_div_eq_div_mul, ← Nat.pow_add]

/-- The method field of a submission's word. -/
theorem encSubmission_method {base : Nat} {s : Submission} (hm : base ≤ s.m.toNat) :
    base + encSubmission base s / 2 ^ 64 % 2 ^ 32 = s.m.toNat := by
  have := s.ch.isLt
  have := s.sc.isLt
  have := s.m.isLt
  unfold encSubmission
  omega

/-- A submission is read from its own encoding. -/
theorem submissionAt_encSubmission {base : Nat} {s : Submission} (hm : base ≤ s.m.toNat) :
    submissionAt base 0 (encSubmission base s) = s := by
  have method : BitVec.ofNat 32 (base + encSubmission base s / 2 ^ (0 + 64) % 2 ^ 32) = s.m := by
    rw [Nat.zero_add, encSubmission_method hm, BitVec.ofNat_toNat, BitVec.setWidth_eq]
  have := s.ch.isLt
  have := s.sc.isLt
  have := s.m.isLt
  have := s.ctx.isLt
  have := s.param.isLt
  have ch : bitsAt 32 0 (encSubmission base s) = s.ch := bitsAt_eq (by unfold encSubmission; omega)
  have sc : bitsAt 32 (0 + 32) (encSubmission base s) = s.sc := bitsAt_eq (by unfold encSubmission; omega)
  have ctx : bitsAt 28 (0 + 96) (encSubmission base s) = s.ctx := bitsAt_eq (by unfold encSubmission; omega)
  have param : bitsAt 32 (0 + 124) (encSubmission base s) = s.param := bitsAt_eq (by unfold encSubmission; omega)
  simp only [submissionAt, method, ch, sc, ctx, param]

/-- The method id a submission's word gives. -/
theorem submissionAt_m_toNat {base w : Nat} (hm : base + w / 2 ^ 64 % 2 ^ 32 < 2 ^ 32) :
    (submissionAt base 0 w).m.toNat = base + w / 2 ^ 64 % 2 ^ 32 := by
  simp only [submissionAt, BitVec.toNat_ofNat, Nat.zero_add]
  exact Nat.mod_eq_of_lt hm

/-- A word of 156 bits is the encoding of the submission read from it. -/
theorem encSubmission_submissionAt {base w : Nat} (hw : w < 2 ^ 156) (hm : base + w / 2 ^ 64 % 2 ^ 32 < 2 ^ 32) :
    encSubmission base (submissionAt base 0 w) = w := by
  rw [encSubmission, submissionAt_m_toNat hm]
  simp only [submissionAt, bitsAt_toNat, Nat.zero_add]
  omega

/-! ### OP frames (rule R90) -/

/-- The key of a word is what its operands stand above. -/
theorem word_key (key operands : Nat) : (key + 2 ^ 8 * operands) % 256 = key % 256 := by
  omega

/-- The bank codes are `codeOfBank`'s. -/
theorem bankOfCode_eq_some_iff {n : Nat} {b : IntrBank} : bankOfCode n = some b ↔ codeOfBank b = n := by
  constructor
  · intro h
    unfold bankOfCode at h
    split at h <;> cases h <;> rfl
  · rintro rfl
    cases b <;> rfl

/-- A bank's code is one byte. -/
theorem codeOfBank_lt (b : IntrBank) : codeOfBank b < 256 := by
  cases b <;> decide

/-- `LFBRD` is read from its own encoding: the width's code stands above the offset. -/
theorem decode_encode_lfbrd (n : Width) (off : Word) : decode (encode (.lfbrd n off)) = .ok (.lfbrd n off) := by
  have := off.isLt
  cases n with
  | b1 =>
    have width : (10 + 2 ^ 8 * off.toNat) / 2 ^ 40 % 256 = 0 := by omega
    simp only [encode, opFrame, decode, decodeOp, word_key, Nat.reduceMod, width]
    exact fits_eq_ok_iff.2 ⟨by omega, by congr 1; exact bitsAt_eq (by omega)⟩
  | b2 =>
    have width : (10 + 2 ^ 8 * (off.toNat + 2 ^ 32 * 1)) / 2 ^ 40 % 256 = 1 := by omega
    simp only [encode, opFrame, decode, decodeOp, word_key, Nat.reduceMod, width]
    exact fits_eq_ok_iff.2 ⟨by omega, by congr 1; exact bitsAt_eq (by omega)⟩
  | b4 =>
    have width : (10 + 2 ^ 8 * (off.toNat + 2 ^ 32 * 2)) / 2 ^ 40 % 256 = 2 := by omega
    simp only [encode, opFrame, decode, decodeOp, word_key, Nat.reduceMod, width]
    exact fits_eq_ok_iff.2 ⟨by omega, by congr 1; exact bitsAt_eq (by omega)⟩

/-- `LFBWR` is read from its own encoding: the width's code says how long the datum above it is. -/
theorem decode_encode_lfbwr (off : Word) (d : Datum) : decode (encode (.lfbwr off d)) = .ok (.lfbwr off d) := by
  have := off.isLt
  cases d with
  | d1 v =>
    have := v.isLt
    have width : (11 + 2 ^ 8 * (off.toNat + 2 ^ 40 * v.toNat)) / 2 ^ 40 % 256 = 0 := by omega
    simp only [encode, opFrame, decode, decodeOp, word_key, Nat.reduceMod, width]
    exact fits_eq_ok_iff.2 ⟨by omega, by congr 2 <;> exact bitsAt_eq (by omega)⟩
  | d2 v =>
    have := v.isLt
    have width : (11 + 2 ^ 8 * (off.toNat + 2 ^ 32 * 1 + 2 ^ 40 * v.toNat)) / 2 ^ 40 % 256 = 1 := by omega
    simp only [encode, opFrame, decode, decodeOp, word_key, Nat.reduceMod, width]
    exact fits_eq_ok_iff.2 ⟨by omega, by congr 2 <;> exact bitsAt_eq (by omega)⟩
  | d4 v =>
    have := v.isLt
    have width : (11 + 2 ^ 8 * (off.toNat + 2 ^ 32 * 2 + 2 ^ 40 * v.toNat)) / 2 ^ 40 % 256 = 2 := by omega
    simp only [encode, opFrame, decode, decodeOp, word_key, Nat.reduceMod, width]
    exact fits_eq_ok_iff.2 ⟨by omega, by congr 2 <;> exact bitsAt_eq (by omega)⟩

/-- An operation is read from its own encoding: its code selects the row, and each operand is the field that the row
reads. -/
theorem decode_encode_op {i : Instr} (hi : (encode i).fmt = .op) : decode (encode i) = .ok i := by
  cases i
  case mrd8 a | mrd16 a | mrd32 a | iord8 a | rmaSetmode a =>
    have := a.isLt
    simp only [encode, opFrame, decode, decodeOp, word_key, Nat.reduceMod]
    exact fits_eq_ok_iff.2 ⟨by omega, by congr 1; exact bitsAt_eq (by omega)⟩
  case mwr8 a b | mwr16 a b | mwr32 a b | iowr8 a b | cfgrd8 a b =>
    have := a.isLt
    have := b.isLt
    simp only [encode, opFrame, decode, decodeOp, word_key, Nat.reduceMod]
    exact fits_eq_ok_iff.2 ⟨by omega, by congr 1 <;> exact bitsAt_eq (by omega)⟩
  case cfgwr8 fn off v =>
    have := fn.isLt
    have := off.isLt
    have := v.isLt
    simp only [encode, opFrame, decode, decodeOp, word_key, Nat.reduceMod]
    exact fits_eq_ok_iff.2 ⟨by omega, by congr 1 <;> exact bitsAt_eq (by omega)⟩
  case lfbrd n off => exact decode_encode_lfbrd n off
  case lfbwr off d => exact decode_encode_lfbwr off d
  case tickPclk | swiRaise | reset => rfl
  case tickMclk elapsed =>
    simp only [encode, opFrame, decode, decodeOp, word_key, Nat.reduceMod]
    congr 2
    omega
  case method cls sub =>
    have := cls.isLt
    have short := encSubmission_lt 0 sub
    have above : (14 + 2 ^ 8 * (cls.toNat + 2 ^ 32 * encSubmission 0 sub)) / 2 ^ 40 = encSubmission 0 sub := by omega
    simp only [encode, opFrame, decode, decodeOp, word_key, Nat.reduceMod]
    rw [submissionAt_above, above, submissionAt_encSubmission (Nat.zero_le _)]
    exact fits_eq_ok_iff.2 ⟨by omega, by congr 1; exact bitsAt_eq (by omega)⟩
  case raise b v =>
    have := v.isLt
    have := codeOfBank_lt b
    have bank : bankOfCode ((15 + 2 ^ 8 * (codeOfBank b + 2 ^ 8 * v.toNat)) / 2 ^ 8 % 256) = some b :=
      bankOfCode_eq_some_iff.2 (by omega)
    simp only [encode, opFrame, decode, decodeOp, word_key, Nat.reduceMod, bank]
    exact fits_eq_ok_iff.2 ⟨by omega, by congr 1; exact bitsAt_eq (by omega)⟩
  all_goals cases hi

/-- What is read from an `OP` word is the operation whose encoding it is: every bit of the word is the code's or an
operand's. -/
theorem encode_of_decodeOp {w : Nat} {i : Instr} (h : decodeOp w = .ok i) :
    wellFormed i = true ∧ encode i = { fmt := .op, word := w } := by
  unfold decodeOp at h
  split at h
  case h_11 key | h_12 key =>
    split at h
    case h_4 => cases h
    all_goals
      obtain ⟨short, rfl⟩ := fits_eq_ok_iff.1 h
      refine ⟨rfl, congrArg (OpFrame.mk .op) ?_⟩
      simp only [bitsAt_toNat]
      omega
  case h_13 key | h_17 key | h_18 key =>
    obtain ⟨short, rfl⟩ := fits_eq_ok_iff.1 h
    exact ⟨rfl, congrArg (OpFrame.mk .op) (by omega)⟩
  case h_14 key =>
    cases h
    exact ⟨rfl, congrArg (OpFrame.mk .op) (by omega)⟩
  case h_15 key =>
    obtain ⟨short, rfl⟩ := fits_eq_ok_iff.1 h
    refine ⟨rfl, congrArg (OpFrame.mk .op) ?_⟩
    rw [submissionAt_above, encSubmission_submissionAt (by omega) (by omega), bitsAt_toNat]
    omega
  case h_16 key =>
    split at h
    case h_1 b bank =>
      obtain ⟨short, rfl⟩ := fits_eq_ok_iff.1 h
      have code := bankOfCode_eq_some_iff.1 bank
      refine ⟨rfl, congrArg (OpFrame.mk .op) ?_⟩
      rw [bitsAt_toNat]
      omega
    case h_2 => cases h
  case h_20 => cases h
  all_goals
    obtain ⟨short, rfl⟩ := fits_eq_ok_iff.1 h
    refine ⟨rfl, congrArg (OpFrame.mk .op) ?_⟩
    simp only [bitsAt_toNat]
    omega

/-! ### RANGE and REG frames (rule R109) -/

/-- What is read from a word of 32 key bits below an access operand. -/
theorem accessAt_encAccess {key : Nat} (hk : key < 2 ^ 32) (acc : Access) (k : Access → Instr) :
    accessAt 32 (key + 2 ^ 32 * encAccess acc) k = .ok (k acc) :=
  accessAt_eq_ok_iff.2 ⟨acc, by omega, rfl⟩

/-- A RANGE row's operands are the ones that select it. -/
theorem wellFormed_rangeInstr (r : RangeRow) (a : BitVec 25) (acc : Access) :
    wellFormed (rangeInstr r a acc) = decide (rangeRow a = r) := by
  cases r <;> rfl

/-- A RANGE row is encoded as its address with the access above it. -/
theorem encode_rangeInstr (r : RangeRow) (a : BitVec 25) (acc : Access) :
    encode (rangeInstr r a acc) = rangeFrame a acc := by
  cases r <;> rfl

/-- The RANGE row of a frame is the one its address selects. -/
theorem decode_rangeFrame (a : BitVec 25) (acc : Access) :
    decode (rangeFrame a acc) = .ok (rangeInstr (rangeRow a) a acc) := by
  have := a.isLt
  have key : (a.toNat + 2 ^ 32 * encAccess acc) % 2 ^ 32 = a.toNat := by omega
  simp only [decode, rangeFrame, decodeRange, key, a.isLt, if_true, BitVec.ofNat_toNat, BitVec.setWidth_eq]
  exact accessAt_encAccess (by omega) acc _

/-- What is read from a `RANGE` word is the row whose encoding it is. -/
theorem encode_of_decodeRange {w : Nat} {i : Instr} (h : decodeRange w = .ok i) :
    wellFormed i = true ∧ encode i = { fmt := .range, word := w } := by
  unfold decodeRange at h
  split at h
  case isTrue key =>
    obtain ⟨acc, above, rfl⟩ := accessAt_eq_ok_iff.1 h
    refine ⟨by rw [wellFormed_rangeInstr]; exact decide_eq_true rfl, ?_⟩
    rw [encode_rangeInstr, rangeFrame, ← above, BitVec.toNat_ofNat]
    exact congrArg (OpFrame.mk .range) (by omega)
  case isFalse => cases h

/-- A row that the lookup finds is in the table, at its key. -/
theorem mem_of_findReg {k : Nat} {rows : List (Nat × (Access → Instr))} {f : Access → Instr}
    (h : findReg k rows = some f) : (k, f) ∈ rows := by
  induction rows with
  | nil => cases h
  | cons p rest ih =>
    obtain ⟨a, g⟩ := p
    unfold findReg at h
    split at h
    · rename_i same
      cases h
      simp [same]
    · exact List.mem_cons_of_mem _ (ih h)

/-- A REG row is encoded as its key with the access above it, and takes every access. -/
theorem encode_regRow (acc : Access) :
    ∀ p ∈ regRows, wellFormed (p.2 acc) = true ∧ encode (p.2 acc) = regFrame p.1 acc := by
  unfold regRows
  repeat refine List.forall_mem_cons.2 ⟨⟨rfl, rfl⟩, ?_⟩
  exact List.forall_mem_nil _

/-- The keys of the REG rows are the addresses of REFCFG's register table, in order (rule R109). -/
theorem regRows_keys : regRows.map (fun p => BitVec.ofNat 32 p.1) = refRtab.map RegEntry.addr := by
  decide

/-- An address that is no register's is no REG row's key. -/
theorem findReg_of_unimplAddr {a : BitVec 25} (h : unimplAddr a = true) : findReg a.toNat regRows = none := by
  rw [Option.eq_none_iff_forall_ne_some]
  intro f hit
  have key : BitVec.ofNat 32 a.toNat ∈ regRows.map (fun p => BitVec.ofNat 32 p.1) :=
    List.mem_map.2 ⟨_, mem_of_findReg hit, rfl⟩
  rw [regRows_keys, List.mem_map] at key
  obtain ⟨e, he, same⟩ := key
  simp only [unimplAddr, Bool.and_eq_true, Bool.not_eq_true', List.any_eq_false, beq_iff_eq] at h
  exact h.2 e he (same.trans (BitVec.ofNat_toNat 32 a))

/-- A REG frame whose address is a row's key is read as that row. -/
theorem decode_regFrame {a : Nat} {f : Access → Instr} (ha : a < 2 ^ 25) (hit : findReg a regRows = some f)
    (acc : Access) : decode (regFrame a acc) = .ok (f acc) := by
  have key : (a + 2 ^ 32 * encAccess acc) % 2 ^ 32 = a := by omega
  simp only [decode, regFrame, decodeReg, key, ha, if_true, hit]
  exact accessAt_encAccess (by omega) acc f

/-- A REG frame whose address is an unimplemented register's is read as the default row. -/
theorem decode_regFrame_unimpl {a : BitVec 25} (h : unimplAddr a = true) (acc : Access) :
    decode (regFrame a.toNat acc) = .ok (.unimpl a acc) := by
  have := a.isLt
  have key : (a.toNat + 2 ^ 32 * encAccess acc) % 2 ^ 32 = a.toNat := by omega
  simp only [decode, regFrame, decodeReg, key, a.isLt, if_true, findReg_of_unimplAddr h, BitVec.ofNat_toNat,
    BitVec.setWidth_eq, h]
  exact accessAt_encAccess (by omega) acc _

/-- What is read from a `REG` word is the row whose encoding it is. -/
theorem encode_of_decodeReg {w : Nat} {i : Instr} (h : decodeReg w = .ok i) :
    wellFormed i = true ∧ encode i = { fmt := .reg, word := w } := by
  unfold decodeReg at h
  split at h
  case isFalse => cases h
  case isTrue key =>
    split at h
    case h_1 f hit =>
      obtain ⟨acc, above, rfl⟩ := accessAt_eq_ok_iff.1 h
      obtain ⟨wf, enc⟩ := encode_regRow acc _ (mem_of_findReg hit)
      refine ⟨wf, enc.trans ?_⟩
      rw [regFrame, ← above]
      exact congrArg (OpFrame.mk .reg) (by omega)
    case h_2 miss =>
      split at h
      case isFalse => cases h
      case isTrue free =>
        obtain ⟨acc, above, rfl⟩ := accessAt_eq_ok_iff.1 h
        refine ⟨free, ?_⟩
        rw [encode, regFrame, ← above, BitVec.toNat_ofNat]
        exact congrArg (OpFrame.mk .reg) (by omega)

/-! ### RMA frames (rule R109) -/

/-- A signature read is read from its own encoding: direction and mode bit clear, the offset below 4. -/
theorem decode_encode_rmaRdSig (off : BitVec 2) : decode (encode (.rmaRdSig off)) = .ok (.rmaRdSig off) := by
  have := off.isLt
  change decodeRma (off.toNat + 2 ^ 8 * 0) = _
  unfold decodeRma
  rw [if_neg (by omega), if_pos (by omega), if_neg (by omega), if_pos (by omega)]
  exact fits_eq_ok_iff.2 ⟨by omega, congrArg Instr.rmaRdSig (bitsAt_eq (by omega))⟩

/-- A zero read is read from its own encoding: direction and mode bit clear, the offset 4 or above. -/
theorem decode_encode_rmaRdZero {off : BitVec 5} (above : 4 ≤ off.toNat) :
    decode (encode (.rmaRdZero off)) = .ok (.rmaRdZero off) := by
  have := off.isLt
  change decodeRma (off.toNat + 2 ^ 8 * 0) = _
  unfold decodeRma
  rw [if_neg (by omega), if_pos (by omega), if_neg (by omega), if_neg (by omega)]
  exact fits_eq_ok_iff.2 ⟨by omega, congrArg Instr.rmaRdZero (bitsAt_eq (by omega))⟩

/-- A read through the shim is read from its own encoding: direction clear, the mode bit set. -/
theorem decode_encode_rmaRdPass (off : BitVec 5) : decode (encode (.rmaRdPass off)) = .ok (.rmaRdPass off) := by
  have := off.isLt
  change decodeRma (0x20 + off.toNat + 2 ^ 8 * 0) = _
  unfold decodeRma
  rw [if_neg (by omega), if_pos (by omega), if_pos (by omega)]
  exact fits_eq_ok_iff.2 ⟨by omega, congrArg Instr.rmaRdPass (bitsAt_eq (by omega))⟩

/-- An address lane's write is read from its own encoding: direction set, the offset below 4. -/
theorem decode_encode_rmaWrAddr (off : BitVec 2) (v : Byte) :
    decode (encode (.rmaWrAddr off v)) = .ok (.rmaWrAddr off v) := by
  have := off.isLt
  have := v.isLt
  change decodeRma (0x40 + off.toNat + 2 ^ 8 * v.toNat) = _
  unfold decodeRma
  rw [if_neg (by omega), if_neg (by omega), if_pos (by omega)]
  exact fits_eq_ok_iff.2 ⟨by omega, by congr 1 <;> exact bitsAt_eq (by omega)⟩

/-- A data lane's write is read from its own encoding: direction set, the offset 4 or above. -/
theorem decode_encode_rmaWrData {off : BitVec 5} (above : 4 ≤ off.toNat) (v : Byte) :
    decode (encode (.rmaWrData off v)) = .ok (.rmaWrData off v) := by
  have := off.isLt
  have := v.isLt
  change decodeRma (0x40 + off.toNat + 2 ^ 8 * v.toNat) = _
  unfold decodeRma
  rw [if_neg (by omega), if_neg (by omega), if_neg (by omega)]
  exact fits_eq_ok_iff.2 ⟨by omega, by congr 1 <;> exact bitsAt_eq (by omega)⟩

/-- What is read from an `RMA` word takes its operands: the rows of the higher offsets are read from 4 up. -/
theorem wellFormed_of_decodeRma {w : Nat} {i : Instr} (h : decodeRma w = .ok i) : wellFormed i = true := by
  have high (hw : ¬ w % 32 < 4) : decide ((4 : BitVec 5) ≤ bitsAt 5 0 w) = true := by
    refine decide_eq_true (BitVec.le_def.2 ?_)
    rw [bitsAt_toNat, Nat.pow_zero, Nat.div_one]
    exact Nat.le_of_not_lt hw
  unfold decodeRma at h
  split at h
  · cases h
  · split at h
    · split at h
      · obtain ⟨-, rfl⟩ := fits_eq_ok_iff.1 h
        rfl
      · split at h
        · obtain ⟨-, rfl⟩ := fits_eq_ok_iff.1 h
          rfl
        · obtain ⟨-, rfl⟩ := fits_eq_ok_iff.1 h
          exact high ‹_›
    · split at h
      · obtain ⟨-, rfl⟩ := fits_eq_ok_iff.1 h
        rfl
      · obtain ⟨-, rfl⟩ := fits_eq_ok_iff.1 h
        exact high ‹_›

/-! ### METHOD frames (rule R109) -/

/-- The fifteen class rows of the opcode table: the class id, the handler and the case (rules R9, R109). -/
def classRows : List (Nat × Handler × (Submission → Instr)) :=
  [(1, .beta, .mBeta), (2, .rop, .mRop), (3, .chroma, .mChroma), (4, .plane, .mPlane), (5, .clip, .mClip),
   (6, .pattern, .mPattern), (7, .rect, .mRect), (8, .raster .point, .mPoint), (9, .raster .line, .mLine),
   (11, .raster .tri, .mTri), (12, .raster .gditext, .mGditext), (13, .raster .m2mf, .mM2mf),
   (14, .raster .sifm, .mSifm), (16, .raster .blit, .mBlit), (17, .raster .image, .mImage)]

/-- The class rows are REFCFG's class table (rule R9). -/
theorem classRows_refClassTab : classRows.map (fun p => (BitVec.ofNat 32 p.1, p.2.1)) = refClassTab := by
  rfl

/-- A class row is selected by its id, takes the submissions of the class rows, and is encoded under its id. -/
theorem classRows_spec (sub : Submission) : ∀ p ∈ classRows, classInstr p.1 sub = p.2.2 sub ∧
    wellFormed (p.2.2 sub) = sub.classOk ∧ encode (p.2.2 sub) = classFrame p.1 sub := by
  unfold classRows
  repeat refine List.forall_mem_cons.2 ⟨⟨rfl, rfl, rfl⟩, ?_⟩
  exact List.forall_mem_nil _

/-- An id of no class row has no handler in REFCFG, and selects the default row. -/
theorem classInstr_unknown {n : Nat} (hn : n < 32) (h : n ∉ classRows.map Prod.fst) (sub : Submission) :
    unknownClassId (BitVec.ofNat 32 n) = true ∧ classInstr n sub = .mUnknownClass (BitVec.ofNat 32 n) sub := by
  have ids : ∀ k < 32, k ∉ classRows.map Prod.fst → unknownClassId (BitVec.ofNat 32 k) = true := by decide
  refine ⟨ids n hn h, ?_⟩
  unfold classInstr
  split
  case h_16 => rfl
  all_goals exact absurd (by decide) h

/-- A class id with no handler in REFCFG is no class row's. -/
theorem not_mem_classRows {cls : Word} (h : unknownClassId cls = true) :
    cls.toNat < 32 ∧ cls.toNat ∉ classRows.map Prod.fst := by
  simp only [unknownClassId, Bool.and_eq_true, decide_eq_true_eq, Bool.not_eq_true', List.any_eq_false,
    beq_iff_eq] at h
  obtain ⟨small, free⟩ := h
  refine ⟨small, fun listed => ?_⟩
  obtain ⟨p, hp, same⟩ := List.mem_map.1 listed
  refine free (BitVec.ofNat 32 p.1, p.2.1) ?_ ?_
  · rw [← classRows_refClassTab]
    exact List.mem_map.2 ⟨p, hp, rfl⟩
  · rw [same, BitVec.ofNat_toNat, BitVec.setWidth_eq]

/-- The case a class id selects takes the submissions of the class rows, and is encoded under the id. -/
theorem classInstr_spec {n : Nat} (hn : n < 32) (sub : Submission) :
    wellFormed (classInstr n sub) = sub.classOk ∧ encode (classInstr n sub) = classFrame n sub := by
  by_cases listed : n ∈ classRows.map Prod.fst
  · obtain ⟨p, hp, rfl⟩ := List.mem_map.1 listed
    obtain ⟨row, wf, enc⟩ := classRows_spec sub p hp
    rw [row]
    exact ⟨wf, enc⟩
  · obtain ⟨unknown, row⟩ := classInstr_unknown hn listed sub
    rw [row]
    refine ⟨by simp only [wellFormed, unknown, Bool.and_true], ?_⟩
    rw [encode, BitVec.toNat_ofNat, Nat.mod_eq_of_lt (by omega)]

/-- A class row's frame is read as the case its class id selects. -/
theorem decode_classFrame {n : Nat} (hn : n < 32) {sub : Submission} (h : sub.classOk = true) :
    decode (classFrame n sub) = .ok (classInstr n sub) := by
  simp only [Submission.classOk, Bool.and_eq_true, decide_eq_true_eq, BitVec.le_def, BitVec.lt_def] at h
  obtain ⟨low, high⟩ := h
  have high' : sub.m.toNat < 8192 := high
  have short := encSubmission_lt keyTGeneric.toNat sub
  have method := encSubmission_method low
  generalize hw : n + 2 ^ 8 * encSubmission keyTGeneric.toNat sub = w
  have key : w % 256 = n := by omega
  have above : w / 2 ^ 8 = encSubmission keyTGeneric.toNat sub := by omega
  have field : w / 2 ^ 72 = encSubmission keyTGeneric.toNat sub / 2 ^ 64 := by omega
  have frame : classFrame n sub = { fmt := .method, word := w } := congrArg (OpFrame.mk .method) hw
  rw [frame]
  change decodeMethod w = _
  rw [decodeMethod, if_pos (by omega), if_pos (by rw [field, method]; exact high'), key, submissionAt_above, above,
    submissionAt_encSubmission low]
  exact fits_eq_ok_iff.2 ⟨by omega, rfl⟩

/-- The default row of the classes is read from its own encoding. -/
theorem decode_encode_mUnknownClass {cls : Word} {sub : Submission}
    (h : wellFormed (.mUnknownClass cls sub) = true) :
    decode (encode (.mUnknownClass cls sub)) = .ok (.mUnknownClass cls sub) := by
  simp only [wellFormed, Bool.and_eq_true] at h
  obtain ⟨classOk, unknown⟩ := h
  obtain ⟨small, free⟩ := not_mem_classRows unknown
  rw [encode, decode_classFrame small classOk, (classInstr_unknown small free sub).2, BitVec.ofNat_toNat,
    BitVec.setWidth_eq]

/-- A generic method is read from its own encoding: bit 5 of the key is set, and the method id counts from 0. -/
theorem decode_encode_mGeneric {cls : Word} {sub : Submission} (h : wellFormed (.mGeneric cls sub) = true) :
    decode (encode (.mGeneric cls sub)) = .ok (.mGeneric cls sub) := by
  simp only [wellFormed, Bool.and_eq_true, decide_eq_true_eq, BitVec.lt_def] at h
  obtain ⟨low, small⟩ := h
  have small' : cls.toNat < 32 := small
  have short := encSubmission_lt 0 sub
  have method := encSubmission_method (Nat.zero_le sub.m.toNat)
  generalize hw : 0x20 + cls.toNat + 2 ^ 8 * encSubmission 0 sub = w
  have key : w % 32 = cls.toNat := by omega
  have above : w / 2 ^ 8 = encSubmission 0 sub := by omega
  have field : w / 2 ^ 72 % 2 ^ 32 = sub.m.toNat := by omega
  have frame : encode (.mGeneric cls sub) = { fmt := .method, word := w } := congrArg (OpFrame.mk .method) hw
  rw [frame]
  change decodeMethod w = _
  rw [decodeMethod, if_neg (by omega), if_pos (by omega), field, if_pos low, key, submissionAt_above, above,
    submissionAt_encSubmission (Nat.zero_le _), BitVec.ofNat_toNat, BitVec.setWidth_eq]
  exact fits_eq_ok_iff.2 ⟨by omega, rfl⟩

/-- What is read from a `METHOD` word is the case whose encoding it is. -/
theorem encode_of_decodeMethod {w : Nat} {i : Instr} (h : decodeMethod w = .ok i) :
    wellFormed i = true ∧ encode i = { fmt := .method, word := w } := by
  have generic : keyTGeneric.toNat = 261 := rfl
  have field : w / 2 ^ 8 / 2 ^ 64 = w / 2 ^ 72 := by omega
  unfold decodeMethod at h
  split at h
  case isTrue small =>
    split at h
    case isFalse => cases h
    case isTrue method =>
      obtain ⟨short, rfl⟩ := fits_eq_ok_iff.1 h
      obtain ⟨wf, enc⟩ := classInstr_spec small (submissionAt keyTGeneric.toNat 8 w)
      have m : (submissionAt keyTGeneric.toNat 8 w).m.toNat = keyTGeneric.toNat + w / 2 ^ 72 % 2 ^ 32 := by
        rw [submissionAt_above, submissionAt_m_toNat (by omega), field]
      refine ⟨wf.trans ?_, enc.trans ?_⟩
      · simp only [Submission.classOk, Bool.and_eq_true, decide_eq_true_eq, BitVec.le_def, BitVec.lt_def, m]
        exact ⟨Nat.le_add_right _ _, method⟩
      · rw [classFrame, submissionAt_above, encSubmission_submissionAt (by omega) (by omega)]
        exact congrArg (OpFrame.mk .method) (by omega)
  case isFalse large =>
    split at h
    case isFalse => cases h
    case isTrue key =>
      split at h
      case isFalse => cases h
      case isTrue method =>
        obtain ⟨short, rfl⟩ := fits_eq_ok_iff.1 h
        have m : (submissionAt 0 8 w).m.toNat = w / 2 ^ 72 % 2 ^ 32 := by
          rw [submissionAt_above, submissionAt_m_toNat (by omega), field, Nat.zero_add]
        have cls : (BitVec.ofNat 32 (w % 32)).toNat = w % 32 := by
          rw [BitVec.toNat_ofNat]
          omega
        constructor
        · simp only [wellFormed, Bool.and_eq_true, decide_eq_true_eq, BitVec.lt_def, m, cls]
          exact ⟨method, Nat.mod_lt w (by decide)⟩
        · rw [encode, cls, submissionAt_above, encSubmission_submissionAt (by omega) (by omega)]
          exact congrArg (OpFrame.mk .method) (by omega)

/-! ### Every format -/

/-- A well-formed case is read from its own encoding, in each of the five formats. -/
theorem decode_encode {i : Instr} (h : wellFormed i = true) : decode (encode i) = .ok i := by
  cases i
  case mrd8 | mrd16 | mrd32 | mwr8 | mwr16 | mwr32 | iord8 | iowr8 | cfgrd8 | cfgwr8 | tickPclk | tickMclk | method
      | raise | swiRaise | reset | rmaSetmode =>
    exact decode_encode_op rfl
  case lfbrd n off => exact decode_encode_lfbrd n off
  case lfbwr off d => exact decode_encode_lfbwr off d
  case rangePmc a acc | rangePbusPci a acc | rangePbus a acc | rangePfifo a acc | rangePtimer a acc
      | rangePfb a acc | rangePstraps a acc | rangeProm a acc | rangePme a acc | rangePgraph a acc
      | rangePvideo a acc | rangePramdac a acc | rangePramdacPalette a acc | rangeVram a acc
      | rangeUser a acc | rangeRamin a acc | rangeNone a acc =>
    have row := decode_rangeFrame a acc
    rw [of_decide_eq_true h] at row
    exact row
  case pmcBoot acc | pmcIntr acc | pmcIntrEn acc | pmcEnable acc | pbusIntr acc | pbusIntrEn acc
      | pfifoIntr acc | pfifoIntrEn acc | ptimerIntr acc | ptimerIntrEn acc | ptimerNumerator acc
      | ptimerDenominator acc | ptimerTimeLo acc | ptimerTimeHi acc | ptimerAlarmLo acc | ptimerAlarmHi acc
      | pstrapsStraps acc | pmeIntr acc | pmeIntrEn acc | pgraphIntr acc | pgraphIntrEn acc | pvideoIntr acc
      | pvideoIntrEn acc | pramdacMpll acc | pramdacVpll acc | palByte0 acc | palByte1 acc | palByte2 acc
      | palByte3 acc =>
    exact decode_regFrame (by decide) rfl acc
  case unimpl a acc => exact decode_regFrame_unimpl h acc
  case rmaRdSig off => exact decode_encode_rmaRdSig off
  case rmaRdZero off => exact decode_encode_rmaRdZero (of_decide_eq_true h)
  case rmaRdPass off => exact decode_encode_rmaRdPass off
  case rmaWrAddr off v => exact decode_encode_rmaWrAddr off v
  case rmaWrData off v => exact decode_encode_rmaWrData (of_decide_eq_true h) v
  case mGeneric cls sub => exact decode_encode_mGeneric h
  case mBeta sub | mRop sub | mChroma sub | mPlane sub | mClip sub | mPattern sub | mRect sub | mPoint sub
      | mLine sub | mTri sub | mGditext sub | mM2mf sub | mSifm sub | mBlit sub | mImage sub =>
    exact decode_classFrame (by decide) h
  case mUnknownClass cls sub => exact decode_encode_mUnknownClass h

/-- Settles O1: each format reads its operands where the encoder puts them. -/
theorem decodeOfEncodeIsTheInstruction : Obligations.DecodeOfEncodeIsTheInstruction :=
  fun _ wf => decode_encode wf

/-- Settles O2: each format's decoder accepts only what its encoder writes, but for the mode bit of an RMA write. -/
theorem decodedFrameIsTheEncodingOfAWellFormedCase : Obligations.DecodedFrameIsTheEncodingOfAWellFormedCase := by
  rintro ⟨fmt, w⟩ i h
  cases fmt with
  | op => exact (encode_of_decodeOp h).imp_right fun enc _ => enc
  | range => exact (encode_of_decodeRange h).imp_right fun enc _ => enc
  | reg => exact (encode_of_decodeReg h).imp_right fun enc _ => enc
  | rma => exact ⟨wellFormed_of_decodeRma h, fun other => absurd rfl other⟩
  | method => exact (encode_of_decodeMethod h).imp_right fun enc _ => enc

/-- Settles O3: each word is the encoding of the operation it stands for. -/
theorem sampleWordsDecode : Obligations.SampleWordsDecode := by
  refine ⟨?op, ?reg, ?range, ?rma, ?method⟩
  case op => exact decode_encode (i := .mwr32 0x200 0x11111111) rfl
  case reg => exact decode_encode (i := .pmcEnable .read) rfl
  case range => exact decode_encode (i := .rangePtimer 0x9400 .read) (by decide)
  case rma => exact decode_encode (i := .rmaWrData 7 0xDE) (by decide)
  case method =>
    exact decode_encode (i := .mRect { ch := 0, sc := 0, m := 0x105, ctx := 0, param := 0 }) (by decide)

end Sys2Proof
end

section
/-! A 32-bit MMIO operation is the RANGE row of its aligned address's target (rules R109, R130, R133). -/

namespace Sys2Proof.Machine

/-- A RANGE row forwards the access to its region; the default row is the miss. -/
theorem exec_rangeInstr (row : RangeRow) (a : BitVec 25) (acc : Access) (s : State) :
    exec (rangeInstr row a acc) s =
      match row.region with
      | some g => rangeAccess g a acc s
      | none => softAccess a acc s := by
  cases row <;> rfl

section

variable {s : State} {a : BitVec 25}

/-- At an address of a region the operation is the access forwarded to it (rules R135, R136). -/
theorem exec_busOp_region {g : Region}
    (target : targetOf s.cfg.1 (alignAddr s.cfg.1 (a.setWidth 32)) = .region g) (acc : Access) :
    exec (busOp (a.setWidth 32) acc) s = rangeAccess g a acc s := by
  cases acc with
  | read =>
    change complete s (arbRead (a.setWidth 32) s).1 (.u32 (arbRead (a.setWidth 32) s).2) = _
    simp only [arbRead, target]
    rfl
  | write v =>
    change complete s (arbWrite (a.setWidth 32) v s) .nothing = _
    simp only [arbWrite, target]
    rfl

/-- At an address that no range holds it is the miss (rule R139). -/
theorem exec_busOp_unmapped (target : targetOf s.cfg.1 (alignAddr s.cfg.1 (a.setWidth 32)) = .unmapped)
    (acc : Access) : exec (busOp (a.setWidth 32) acc) s = softAccess a acc s := by
  cases acc with
  | read =>
    change complete s (arbRead (a.setWidth 32) s).1 (.u32 (arbRead (a.setWidth 32) s).2) = _
    simp only [arbRead, target]
    rfl
  | write v =>
    change complete s (arbWrite (a.setWidth 32) v s) .nothing = _
    simp only [arbWrite, target]
    rfl

/-- Under every configuration the operation is the row of its aligned address's target. -/
theorem exec_busOp_row {row : RangeRow}
    (target : targetOf s.cfg.1 (alignAddr s.cfg.1 (a.setWidth 32)) =
      match row.region with
      | some g => .region g
      | none => .unmapped) (acc : Access) :
    exec (busOp (a.setWidth 32) acc) s = exec (rangeInstr row a acc) s := by
  rw [exec_rangeInstr]
  cases h : row.region with
  | some g =>
    rw [h] at target
    exact exec_busOp_region target acc
  | none =>
    rw [h] at target
    exact exec_busOp_unmapped target acc

end

/-- Settles O17: under REFCFG-32 the row that the address selects is the one of its target. -/
theorem busOperationIsItsRangeRow : Obligations.BusOperationIsItsRangeRow := by
  refine ⟨fun s a acc hcfg => ?_, fun s a acc row target => exec_busOp_row target acc⟩
  have cfg : s.cfg.1 = refCfgWith 25 := by rw [hcfg]; rfl
  refine exec_busOp_row ?_ acc
  rw [cfg]
  exact targetOf_refCfg32 a

end Sys2Proof.Machine
end

section
/-! The dispatch of methods (rules R260, R263, R282), under any configuration and under the numbers of the opcode
table. -/

namespace Sys2Proof.Machine

/-- A method id below `T_GENERIC` goes to the generic handler, whatever the class (rule R260). -/
theorem exec_method_generic {s : State} {sub : Submission} (h : (narrowSub s.cfg.1 sub).m < s.cfg.1.tGeneric)
    (cls : Word) : exec (.method cls sub) s = exec (.mGeneric cls sub) s := by
  change complete s (methodDispatch _ _ s) .nothing = complete s _ .nothing
  rw [methodDispatch, if_pos h]

/-- A method at or above `T_GENERIC` goes to the handler of its class (rule R260). -/
theorem exec_method_class {s : State} {cls : Word} {sub : Submission} {h : Handler}
    (specific : ¬ (narrowSub s.cfg.1 sub).m < s.cfg.1.tGeneric)
    (known : handlerOf s.cfg.1.classTab (narrowClass s.cfg.1 cls) = some h) :
    exec (.method cls sub) s = classStep h sub s := by
  change complete s (methodDispatch _ _ s) .nothing = complete s _ .nothing
  rw [methodDispatch, if_neg specific, known]

/-- A method at or above `T_GENERIC` of a class without a handler is an unknown class's (rules R260, R264). -/
theorem exec_method_unknown {s : State} {cls : Word} {sub : Submission}
    (specific : ¬ (narrowSub s.cfg.1 sub).m < s.cfg.1.tGeneric)
    (unknown : handlerOf s.cfg.1.classTab (narrowClass s.cfg.1 cls) = none) :
    exec (.method cls sub) s = exec (.mUnknownClass cls sub) s := by
  change complete s (methodDispatch _ _ s) .nothing = complete s _ .nothing
  rw [methodDispatch, if_neg specific, unknown]

/-! ### The METHOD rows of the opcode table -/

/-- A class row runs its handler, which is the one REFCFG's class table gives its id (rule R9). -/
theorem classRows_exec (sub : Submission) (s : State) : ∀ p ∈ classRows,
    exec (p.2.2 sub) s = classStep p.2.1 sub s ∧
    handlerOf refClassTab (BitVec.ofNat 32 p.1) = some p.2.1 := by
  unfold classRows
  repeat refine List.forall_mem_cons.2 ⟨⟨rfl, rfl⟩, ?_⟩
  exact List.forall_mem_nil _

/-- A class that the opcode table lists as unknown has no handler in REFCFG. -/
theorem handlerOf_unknownClassId {cls : Word} (h : unknownClassId cls = true) : handlerOf refClassTab cls = none := by
  simp only [unknownClassId, Bool.and_eq_true, Bool.not_eq_true', List.any_eq_false, beq_iff_eq] at h
  obtain ⟨-, free⟩ := h
  generalize refClassTab = tab at free
  induction tab with
  | nil => rfl
  | cons q rest ih =>
    rw [handlerOf, if_neg (free q (by simp))]
    exact ih fun p hp => free p (by simp [hp])

/-- Under REFCFG a method is the METHOD row its operands select. -/
theorem exec_method_row {s : State} {n : Nat} (hc : s.cfg.1 = refCfgWith n) (cls : Word) (sub : Submission) :
    exec (.method cls sub) s = exec (methodRow cls sub) s := by
  have method : (narrowSub s.cfg.1 sub).m = lowBits 13 sub.m := by rw [hc]; rfl
  have narrow (x : Word) : narrowClass s.cfg.1 x = lowBits 5 x := by rw [hc]; rfl
  have base : s.cfg.1.tGeneric = keyTGeneric := by rw [hc]; rfl
  have table : s.cfg.1.classTab = refClassTab := by rw [hc]; rfl
  by_cases generic : lowBits 13 sub.m < keyTGeneric
  · rw [methodRow, if_pos generic]
    exact exec_method_generic (by rw [method, base]; exact generic) cls
  · have specific : ¬ (narrowSub s.cfg.1 sub).m < s.cfg.1.tGeneric := by rw [method, base]; exact generic
    have small : (lowBits 5 cls).toNat < 32 := by
      rw [lowBits_toNat (by decide)]
      exact Nat.mod_lt _ (by decide)
    have word : BitVec.ofNat 32 (lowBits 5 cls).toNat = lowBits 5 cls := by simp
    rw [methodRow, if_neg generic]
    by_cases listed : (lowBits 5 cls).toNat ∈ classRows.map Prod.fst
    · obtain ⟨p, hp, same⟩ := List.mem_map.1 listed
      obtain ⟨row, handler⟩ := classRows_exec sub s p hp
      rw [← same, (classRows_spec sub p hp).1, row]
      refine exec_method_class specific ?_
      rw [table, narrow, ← word, ← same, handler]
    · obtain ⟨unknown, row⟩ := classInstr_unknown small listed sub
      rw [word] at unknown row
      have twice : lowBits 5 (lowBits 5 cls) = lowBits 5 cls := by
        rw [lowBits, lowBits, BitVec.and_assoc, BitVec.and_self]
      rw [row, exec_method_unknown specific (by rw [table, narrow, handlerOf_unknownClassId unknown])]
      change complete s (unknownClassMethod (narrowClass s.cfg.1 cls) _ s) .nothing =
        complete s (unknownClassMethod (narrowClass s.cfg.1 (lowBits 5 cls)) _ s) .nothing
      rw [narrow, narrow, twice]

/-- Settles O45: REFCFG's two variants differ in `ADDR_BITS` alone. -/
theorem methodIsItsDispatchRow : Obligations.MethodIsItsDispatchRow := by
  rintro s cls sub (h | h)
  · exact exec_method_row (n := 24) (by rw [h]; rfl) cls sub
  · exact exec_method_row (n := 25) (by rw [h]; rfl) cls sub

/-! ### The notifier -/

/-- The events that a method signals under a notify context (rule R282). -/
def signalled (sub : Submission) (ctx : Option Word) : List Event :=
  match ctx with
  | none => []
  | some c => [.notify c sub.ch sub.sc sub.m]

/-- The notifier appends what the notify context has it signal, and changes nothing else. -/
theorem notify_eq (sub : Submission) (s : State) :
    notify sub s = { s with events := s.events ++ signalled sub s.notifyCtx } := by
  unfold notify
  split
  · rename_i absent
    have silent : signalled sub s.notifyCtx = [] := by rw [absent]; rfl
    rw [silent, List.append_nil]
  · rename_i c present
    have signals : signalled sub s.notifyCtx = [.notify c sub.ch sub.sc sub.m] := by rw [present]; rfl
    rw [signals, State.addEvent]

/-- An operand taken in a width of at most 32 bits (rules R5, R94). -/
theorem lowBits_eq {w : Nat} (h : w ≤ 32) (v : Word) : lowBits w v = BitVec.ofNat 32 (v.toNat % 2 ^ w) := by
  rw [← lowBits_toNat h, BitVec.ofNat_toNat, BitVec.setWidth_eq]

/-- Settles O46: the tuple is taken in its widths, and the generic handler's two branches each end in the notifier. -/
theorem genericMethodSetsTheNotifier : Obligations.GenericMethodSetsTheNotifier := by
  intro s cls sub m ch sc running hm hch hsc
  obtain ⟨wMethod, wChan, wSubchan, -⟩ := widths_le s.cfg
  have tuple : narrowSub s.cfg.1 sub = { sub with m := m, ch := ch, sc := sc } := by
    rw [hm, hch, hsc, ← lowBits_eq wMethod, ← lowBits_eq wChan, ← lowBits_eq wSubchan]
    rfl
  have step : exec (.mGeneric cls sub) s = .next ((genericMethod (narrowSub s.cfg.1 sub) s).answer .nothing) :=
    complete_next running _ _
  refine ⟨tuple, fun sets => ?_, fun other => ?_,
    fun generic => exec_method_generic (by rw [tuple]; exact generic) cls⟩
  · have handled : genericHandler (callOf { sub with m := m, ch := ch, sc := sc }) s =
        { s with notifyCtx := some sub.param } := if_pos sets
    rw [step, tuple, genericMethod, handled, notify_eq]
    rfl
  · have handled : genericHandler (callOf { sub with m := m, ch := ch, sc := sc }) s =
        s.addDiag .unimplMethod m sub.param .generic := if_neg other
    rw [step, tuple, genericMethod, handled, notify_eq]
    rfl

end Sys2Proof.Machine
end

section
/-! The pattern test (rule R286), and the classes that the spec does not open (rules R273 to R280, R283): a request is
a write of VRAM at its own bytes or nothing, so a list of them changes VRAM at their bytes alone. -/

namespace Sys2Proof.Machine

/-- Settles O52: the four shapes are the four cases of the index. -/
theorem patternSelectsByPosition : Obligations.PatternSelectsByPosition := by
  intro p x y i c
  refine ⟨fun reserved => ?_, fun shaped hi hc => ?_⟩
  · simp [patternSelect, patternIndex, reserved]
  · have index : patternIndex p.patShape x y = some i := by
      subst hi
      match h : p.patShape with
      | 0#2 => rfl
      | 1#2 => rfl
      | 2#2 => rfl
      | 3#2 => exact absurd h shaped
    subst hc
    simp only [patternSelect, index]

/-! ### Requests (rule R283) -/

/-- The offset of VRAM and the width that a request addresses, under a black-box record. -/
def requestPlace (o : BlackBox) (g : Grobj) (r : Request) : Nat × Width :=
  match r with
  | .pix x y _ => Config.pixAddr o g x y
  | .raw off n _ => (off, n)

/-- A request writes VRAM at its place, or suppressed by a test does nothing. -/
theorem runRequest_cases (g : Grobj) (r : Request) (s : State) :
    runRequest g r s = s ∨
    ∃ v, runRequest g r s =
      s.memWrite .vram (requestPlace s.pg.blackBox g r).1 (requestPlace s.pg.blackBox g r).2 v := by
  cases r with
  | raw off n v => exact .inr ⟨v, rfl⟩
  | pix x y src =>
    change pixel g x y src s = s ∨ ∃ v, pixel g x y src s = _
    unfold pixel
    split
    · split
      · split
        · exact .inl rfl
        · exact .inr ⟨_, rfl⟩
      · exact .inl rfl
    · exact .inl rfl

/-- A request changes VRAM alone. -/
theorem runRequest_frame (g : Grobj) (r : Request) (s : State) : ∃ m, runRequest g r s = { s with vram := m } := by
  rcases runRequest_cases g r s with same | ⟨v, written⟩
  · exact ⟨s.vram, same⟩
  · have frame := s.memWrite_vram_frame (requestPlace s.pg.blackBox g r).1 (requestPlace s.pg.blackBox g r).2 v
    rw [← written] at frame
    exact ⟨_, congrArg (fun t : State => { t with vram := (runRequest g r s).vram }) frame⟩

/-- A request leaves every byte of VRAM that none of its own falls on. -/
theorem runRequest_byteAt (g : Grobj) (r : Request) (s : State) {k : Nat}
    (miss : ∀ j, j < (requestPlace s.pg.blackBox g r).2.bytes →
      k % s.cfg.1.vramSize ≠ ((requestPlace s.pg.blackBox g r).1 + j) % s.cfg.1.vramSize) :
    (runRequest g r s).byteAt .vram k = s.byteAt .vram k := by
  rcases runRequest_cases g r s with same | ⟨v, written⟩
  · rw [same]
  · rw [written]
    exact State.byteAt_memWrite_miss s (by decide) _ _ v miss

/-- Requests change VRAM alone. -/
theorem runRequests_frame (g : Grobj) (reqs : List Request) (s : State) :
    ∃ m, runRequests g reqs s = { s with vram := m } := by
  induction reqs generalizing s with
  | nil => exact ⟨s.vram, rfl⟩
  | cons r rest ih =>
    obtain ⟨n, first⟩ := runRequest_frame g r s
    obtain ⟨m, others⟩ := ih (runRequest g r s)
    rw [first] at others
    exact ⟨m, by rw [runRequests, first, others]⟩

/-- Requests leave every byte of VRAM that no byte of theirs falls on: where a pixel stands does not change on the
way, because none of them writes `PGRAPH.opaque` or the configuration. -/
theorem runRequests_byteAt (g : Grobj) (reqs : List Request) (s : State) {k : Nat}
    (miss : ∀ r ∈ reqs, ∀ j, j < (requestPlace s.pg.blackBox g r).2.bytes →
      k % s.cfg.1.vramSize ≠ ((requestPlace s.pg.blackBox g r).1 + j) % s.cfg.1.vramSize) :
    (runRequests g reqs s).byteAt .vram k = s.byteAt .vram k := by
  induction reqs generalizing s with
  | nil => rfl
  | cons r rest ih =>
    refine (ih (runRequest g r s) ?_).trans (runRequest_byteAt g r s (miss r (by simp)))
    obtain ⟨m, frame⟩ := runRequest_frame g r s
    rw [frame]
    exact fun q hq => miss q (by simp [hq])

/-- The requests are carried out in list order. -/
theorem runRequests_eq_foldl (g : Grobj) (reqs : List Request) (s : State) :
    runRequests g reqs s = reqs.foldl (fun w r => runRequest g r w) s := by
  induction reqs generalizing s with
  | nil => rfl
  | cons r rest ih => exact ih _

/-! ### The classes -/

/-- A row of an unopened class hands the method to its handler. -/
theorem exec_rasterRow (sub : Submission) (s : State) :
    ∀ p ∈ rasterRows, exec (p.2 sub) s = classStep (.raster p.1) sub s := by
  unfold rasterRows
  repeat refine List.forall_mem_cons.2 ⟨rfl, ?_⟩
  exact List.forall_mem_nil _

/-- A method of an unopened class: the requests run on the state with the new record, then the notifier (rules R260,
R283). -/
theorem classMethod_raster {h : RasterClass} {sub : Submission} {s : State} {o : BlackBox} {reqs : List Request}
    (result : rasterResult h (grobjFetch sub.ctx s) (callOf sub) s = (o, reqs)) :
    classMethod (.raster h) sub s =
      notify sub (runRequests (grobjFetch sub.ctx s) reqs { s with pg := { s.pg with blackBox := o } }) := by
  rw [classMethod, runHandler, blackBox, result]

/-- Settles O54: the requests change VRAM at their own bytes, and the notifier the events. -/
theorem blackBoxClassesChangeOnlyVram : Obligations.BlackBoxClassesChangeOnlyVram := by
  intro s sub u g h i cls o reqs running hu hg selects result
  have row : exec i s = classStep (.raster h) sub s := by
    rcases selects with ⟨p, hp, rfl, rfl⟩ | ⟨rfl, specific, known⟩
    · exact exec_rasterRow sub s p hp
    · exact exec_method_class (by rw [← hu]; exact specific) known
  have ctx : grobjFetch u.ctx s = g := by rw [hg, hu]; rfl
  have method := classMethod_raster (sub := u) (s := s) (o := o) (reqs := reqs) (by rw [ctx]; exact result.symm)
  obtain ⟨m, frame⟩ := runRequests_frame g reqs { s with pg := { s.pg with blackBox := o } }
  rw [ctx, frame, notify_eq] at method
  have step : exec i s = .next ((classMethod (.raster h) u s).answer .nothing) := by
    rw [row, classStep, ← hu, complete_next running]
  rw [method] at step
  refine ⟨_, step, ?vram, fun k miss => ?bytes, rfl, rfl, rfl⟩
  case vram =>
    have folded := congrArg State.vram ((runRequests_eq_foldl g reqs _).symm.trans frame)
    exact folded.symm
  case bytes =>
    have untouched : (runRequests g reqs { s with pg := { s.pg with blackBox := o } }).byteAt .vram k =
        s.byteAt .vram k := by
      refine runRequests_byteAt g reqs _ fun r hr j hj => ?_
      cases r with
      | pix x y src => exact miss _ hr j hj
      | raw off n v => exact miss _ hr j hj
    rw [frame] at untouched
    exact untouched

end Sys2Proof.Machine
end

section
/-! The shim's address register is read by no target: an access that the shim proxies does the same whatever `RMA.addr`
holds. -/

namespace Sys2Proof.Machine

/-- The state with another address in the shim's register. -/
def State.withAddr (s : State) (x : Word) : State := { s with rmaAddr := x }

section

variable (s : State) (x : Word)

@[simp] theorem State.withAddr_rmaAddr : (s.withAddr x).rmaAddr = x := rfl
@[simp] theorem State.withAddr_rmaData : (s.withAddr x).rmaData = s.rmaData := rfl
@[simp] theorem State.withAddr_cfg : (s.withAddr x).cfg = s.cfg := rfl

/-- One test of what the address is no part of selects the same branch. -/
theorem State.ite_withAddr {p : Prop} [Decidable p] {x : Word} {t u t' u' : State} (ht : t' = t.withAddr x)
    (hu : u' = u.withAddr x) : (if p then t' else u') = (if p then t else u).withAddr x := by
  split
  · exact ht
  · exact hu

theorem recompute_withAddr (b : Bool) : recompute b (s.withAddr x) = (recompute b s).withAddr x := by
  rw [recompute_eq, recompute_eq]
  rfl

theorem writePmcIntr_withAddr (v : Word) : writePmcIntr v (s.withAddr x) = (writePmcIntr v s).withAddr x := by
  by_cases anomaly : v &&& ~~~swBit ≠ 0 ∧ v &&& ~~~swBit &&& s.pmcIntr = 0
  · have anomaly' : v &&& ~~~swBit ≠ 0 ∧ v &&& ~~~swBit &&& (s.withAddr x).pmcIntr = 0 := anomaly
    simp only [writePmcIntr, if_pos anomaly, if_pos anomaly']
    rw [← recompute_withAddr]
    rfl
  · have quiet : ¬ (v &&& ~~~swBit ≠ 0 ∧ v &&& ~~~swBit &&& (s.withAddr x).pmcIntr = 0) := anomaly
    simp only [writePmcIntr, if_neg anomaly, if_neg quiet]
    rw [← recompute_withAddr]
    rfl

theorem writeStraps_withAddr (a v : Word) : writeStraps a v (s.withAddr x) = (writeStraps a v s).withAddr x :=
  State.ite_withAddr rfl rfl

theorem computedRead_withAddr (c : ComputedReg) :
    computedRead c (s.withAddr x) = ((computedRead c s).1.withAddr x, (computedRead c s).2) := by
  cases c with
  | pmcIntr =>
    simp only [computedRead, recompute_withAddr]
    rfl
  | _ => rfl

theorem computedWrite_withAddr (c : ComputedReg) (a v : Word) :
    computedWrite c a v (s.withAddr x) = (computedWrite c a v s).withAddr x := by
  cases c with
  | pmcIntr => exact writePmcIntr_withAddr s x v
  | straps => exact writeStraps_withAddr s x a v
  | pmcIntrEn => exact recompute_withAddr { s with pmcIntrEn := v &&& enMask s.cfg.1 } x true
  | bankIntr b => exact recompute_withAddr (s.setIntr b (s.intrOf b &&& ~~~v)) x true
  | bankIntrEn b => exact recompute_withAddr (s.setIntrEn b v) x true
  | _ => rfl

theorem kindRead_withAddr (e : RegEntry) :
    kindRead e (s.withAddr x) = ((kindRead e s).1.withAddr x, (kindRead e s).2) := by
  unfold kindRead
  cases e.kind with
  | plain p => cases p <;> rfl
  | readOnly c => rfl
  | computed r => exact computedRead_withAddr s x r

theorem kindWrite_withAddr (e : RegEntry) (v : Word) :
    kindWrite e v (s.withAddr x) = (kindWrite e v s).withAddr x := by
  unfold kindWrite
  cases e.kind with
  | plain p => cases p <;> rfl
  | readOnly c => rfl
  | computed r => exact computedWrite_withAddr s x r _ v

theorem bankRead_withAddr (n : Width) (a : Word) :
    bankRead n a (s.withAddr x) = ((bankRead n a s).1.withAddr x, (bankRead n a s).2) := by
  simp only [bankRead, State.withAddr_cfg]
  cases findEntry s.cfg.1.rtab a with
  | none => rfl
  | some e =>
    simp only [entryRead, entryValue, kindRead_withAddr]
    rfl

theorem bankWrite_withAddr (n : Width) (a v : Word) :
    bankWrite n a v (s.withAddr x) = (bankWrite n a v s).withAddr x := by
  simp only [bankWrite, State.withAddr_cfg]
  cases findEntry s.cfg.1.rtab a with
  | none => rfl
  | some e =>
    simp only [entryWrite, kindWrite_withAddr]
    rfl

theorem cfgWrite_withAddr (off v : Byte) : cfgWrite off v (s.withAddr x) = (cfgWrite off v s).withAddr x :=
  State.ite_withAddr rfl rfl

theorem State.memRead_withAddr (sp : Space) (off : Nat) (n : Width) :
    (s.withAddr x).memRead sp off n = s.memRead sp off n :=
  State.memRead_congr (State.byteAt_congr rfl rfl rfl rfl sp) n

theorem State.memWrite_withAddr (sp : Space) (off : Nat) (n : Width) (v : Word) :
    (s.withAddr x).memWrite sp off n v = (s.memWrite sp off n v).withAddr x := by
  cases n <;> cases sp <;> rfl

/-- A target's read neither reads nor writes the shim's address. -/
theorem regionRead_withAddr (r : Region) (n : Width) (a : Word) :
    regionRead r n a (s.withAddr x) = ((regionRead r n a s).1.withAddr x, (regionRead r n a s).2) := by
  cases r with
  | bank b => exact bankRead_withAddr s x n a
  | prom | vram | ramin => simp only [regionRead, State.memRead_withAddr, State.withAddr_cfg]
  | _ => rfl

/-- A target's write neither reads nor writes the shim's address. -/
theorem regionWrite_withAddr (r : Region) (n : Width) (a v : Word) :
    regionWrite r n a v (s.withAddr x) = (regionWrite r n a v s).withAddr x := by
  cases r with
  | bank b => exact bankWrite_withAddr s x n a v
  | pbusPci =>
    refine State.ite_withAddr (cfgWrite_withAddr s x _ _) ?_
    simp only [mirrorWrite, State.withAddr_cfg, cfgWrite_withAddr]
  | vram | ramin => exact State.memWrite_withAddr s x _ _ n v
  | _ => rfl

/-- The read that the shim proxies reads the address it is given, not the register. -/
theorem passRead_withAddr (t : Word) :
    passRead t (s.withAddr x) = ((passRead t s).1.withAddr x, (passRead t s).2) := by
  simp only [passRead, State.withAddr_cfg]
  cases targetOf s.cfg.1 (alignAddr s.cfg.1 t) with
  | region r => exact regionRead_withAddr s x r _ _
  | _ => rfl

end

end Sys2Proof.Machine
end

section
/-! Ports and the shim's MMIO window: each access is an access at an offset of the shim, and the RMA rows are what the
shim does at an offset (rules R103, R150, R211 to R217). -/

namespace Sys2Proof.Machine

/-! ### The RMA rows of an offset -/

/-- The row that reads at an offset of five bits is the shim's read there. -/
theorem exec_rmaReadRow {off : Nat} (small : off < 32) (mode : Byte) (s : State) :
    exec (rmaReadRow mode off) s = rmaReadAt off s := by
  have five : (BitVec.ofNat 5 off).toNat = off := by
    rw [BitVec.toNat_ofNat]
    omega
  unfold rmaReadRow
  split
  · exact congrArg (rmaReadAt · s) five
  · split
    · have two : (BitVec.ofNat 2 off).toNat = off := by
        rw [BitVec.toNat_ofNat]
        omega
      exact congrArg (rmaReadAt · s) two
    · exact congrArg (rmaReadAt · s) five

/-- The row of an address lane is the shim's write at an offset below 4. -/
theorem exec_rmaWrAddr {off : Nat} (low : off < 4) (v : Byte) (s : State) :
    exec (.rmaWrAddr (BitVec.ofNat 2 off) v) s = complete s (rmaWrite off v s) .nothing := by
  have lane : (BitVec.ofNat 2 off).toNat = off % 4 := BitVec.toNat_ofNat off 2
  change complete s (rmaWriteAddr _ v s) .nothing = _
  rw [lane, rmaWrite, if_pos low]

/-- The row of a data lane is the shim's write at any offset of that lane from 4 up. -/
theorem exec_rmaWrData {off k : Nat} (high : ¬ off < 4) (lane : k % 4 = off % 4) (v : Byte) (s : State) :
    exec (.rmaWrData (BitVec.ofNat 5 k) v) s = complete s (rmaWrite off v s) .nothing := by
  have lane' : (BitVec.ofNat 5 k).toNat % 4 = off % 4 := by
    rw [BitVec.toNat_ofNat]
    omega
  change complete s (rmaWriteData _ v s) .nothing = _
  rw [lane', rmaWrite, if_neg high]

/-- The row that writes at an offset of five bits is the shim's write there. -/
theorem exec_rmaWriteRow (off : Nat) (v : Byte) (s : State) :
    exec (rmaWriteRow off v) s = complete s (rmaWrite off v s) .nothing := by
  unfold rmaWriteRow
  split
  · rename_i low
    exact exec_rmaWrAddr low v s
  · rename_i high
    exact exec_rmaWrData high rfl v s

/-! ### The shim's MMIO window (rule R150) -/

section

variable {s : State} {a : Word} {r : Range}

/-- An address in the window goes to the shim before any region (rule R133). -/
theorem targetOf_rmaWindow {c : Cfg} (window : c.rmaMmioWindow = some r) (inside : r.has a = true) :
    targetOf c a = .rmaMmio := by
  simp only [targetOf, window, inside, if_true]

variable (window : s.cfg.1.rmaMmioWindow = some r) (inside : r.has (alignAddr s.cfg.1 a) = true)

include window inside

/-- A 32-bit read in the window is the shim's read at the offset, the byte zero-extended. -/
theorem arbRead_rmaWindow : arbRead a s = ((rmaRead (alignAddr s.cfg.1 a - r.lo).toNat s).1,
    (rmaRead (alignAddr s.cfg.1 a - r.lo).toNat s).2.setWidth 32) := by
  simp only [arbRead, targetOf_rmaWindow window inside, rmaWindowLo, window]

/-- A 32-bit write in the window is the shim's write of the low byte at the offset. -/
theorem arbWrite_rmaWindow (v : Word) :
    arbWrite a v s = rmaWrite (alignAddr s.cfg.1 a - r.lo).toNat (byteOf v 0) s := by
  simp only [arbWrite, targetOf_rmaWindow window inside, rmaWindowLo, window]

end

/-- A read of the shim with `mode[0]` clear: the signature, or 0 (rule R214). -/
theorem rmaRead_direct {s : State} (direct : s.rmaMode.getLsbD 0 = false) (o : Nat) :
    rmaRead o s = (s, if o < 4 then sigByte s.cfg.1.rmaSig o else 0) := by
  have direct' : ¬ modeLow s.rmaMode = true := by rw [modeLow, direct]; decide
  rw [rmaRead, if_neg direct']
  split <;> rfl

/-- A read of the shim with `mode[0]` set is a lane of the read it proxies (rule R215). -/
theorem rmaRead_pass {s : State} (pass : s.rmaMode.getLsbD 0 = true) (o : Nat) :
    rmaRead o s = ((passRead (passTarget s o) s).1, byteOf (passRead (passTarget s o) s).2 (o % 4)) := by
  rw [rmaRead, modeLow, if_pos pass]

/-- The dword part of an offset may as well stand in the shim's address: the read then takes the lane alone, and but
for the address does the same. -/
theorem rmaRead_dword {s : State} (pass : s.rmaMode.getLsbD 0 = true) (o : Nat) :
    rmaRead (o % 4) (s.withAddr (s.rmaAddr + BitVec.ofNat 32 (o / 4 * 4))) =
      ((rmaRead o s).1.withAddr (s.rmaAddr + BitVec.ofNat 32 (o / 4 * 4)), (rmaRead o s).2) := by
  generalize hx : s.rmaAddr + BitVec.ofNat 32 (o / 4 * 4) = x
  have lane : o % 4 / 4 * 4 = 0 := by omega
  have target : passTarget (s.withAddr x) (o % 4) = passTarget s o := by
    rw [passTarget, passTarget, hx, lane, State.withAddr_rmaAddr]
    exact congrArg (· &&& ~~~(3 : Word)) (BitVec.add_zero x)
  rw [rmaRead_pass (s := s.withAddr x) pass, rmaRead_pass pass, target, passRead_withAddr, Nat.mod_mod]

/-- A read of the shim leaves its address. -/
theorem rmaRead_rmaAddr (o : Nat) (s : State) : (rmaRead o s).1.rmaAddr = s.rmaAddr := by
  have passed (t : Word) : (passRead t s).1.shim = s.shim := by
    unfold passRead
    split
    · rfl
    · rfl
    · exact regionRead_shim _ _ _ s
  unfold rmaRead
  split
  · exact congrArg Prod.fst (passed _)
  · split <;> rfl

/-- Settles O42: a port or a window's address gives an offset of the shim, at which the rows are what it does. -/
theorem portOperationIsItsRmaRow : Obligations.PortOperationIsItsRmaRow := by
  refine ⟨fun s port v off isPort hoff small => ?ports, fun s a v r o running window inside ho =>
    ⟨fun direct => ?direct, fun pass => ?pass, ?write⟩⟩
  case ports =>
    have offset : rmaOff s.cfg.1 s.rmaMode port = off := by
      rw [hoff, rmaOff, rmaSel, Nat.mul_comm]
    have reads : portIn port s = rmaRead off s := by rw [portIn, if_pos isPort, offset]
    have writes : portOut port v s = rmaWrite off v s := by rw [portOut, if_pos isPort, offset]
    rw [exec_rmaReadRow small, exec_rmaWriteRow, ← writes, rmaReadAt, ← reads]
    exact ⟨rfl, rfl⟩
  case direct =>
    have read := arbRead_rmaWindow window inside
    rw [← ho, rmaRead_direct direct] at read
    change complete s (arbRead a s).1 (.u32 (arbRead a s).2) = _
    rw [complete_next running, read, apply_ite (BitVec.setWidth 32)]
    rfl
  case pass =>
    have read := arbRead_rmaWindow window inside
    rw [← ho] at read
    have lane : (BitVec.ofNat 5 (o % 4)).toNat = o % 4 := by
      rw [BitVec.toNat_ofNat]
      omega
    refine ⟨((rmaRead o s).1.withAddr (s.rmaAddr + BitVec.ofNat 32 (o / 4 * 4))).answer (.u8 (rmaRead o s).2),
      (rmaRead o s).2, ?row, rfl, ?whole⟩
    case row =>
      change rmaReadAt (BitVec.ofNat 5 (o % 4)).toNat (s.withAddr (s.rmaAddr + BitVec.ofNat 32 (o / 4 * 4))) = _
      rw [lane, rmaReadAt, rmaRead_dword pass]
      exact complete_next running _ _
    case whole =>
      change complete s (arbRead a s).1 (.u32 (arbRead a s).2) = _
      rw [complete_next running, read, ← rmaRead_rmaAddr o s]
      rfl
  case write =>
    have low : byteOf v 0 = v.setWidth 8 := by simp [byteOf]
    change complete s (arbWrite a v s) .nothing = _
    rw [arbWrite_rmaWindow window inside, ← ho, low]
    split
    · rename_i addr
      exact (exec_rmaWrAddr addr _ s).symm
    · rename_i data
      exact (exec_rmaWrData data (by omega) _ s).symm

end Sys2Proof.Machine
end

section
/-! Addresses (rules R63, R98, R131): what an operation does depends on the address below `ADDR_BITS` alone, and outside
the byte windows on the address's dword. -/

namespace Sys2Proof.Machine

/-! ### The masked and the aligned address -/

/-- The window is of 2^24 or 2^25 bytes (rule R71). -/
theorem addrBits_cases (c : ValidCfg) : c.1.addrBits = 24 ∨ c.1.addrBits = 25 := by
  have hv := c.2
  simp only [Cfg.valid, Cfg.scalarsOk, Bool.and_eq_true, Bool.or_eq_true, beq_iff_eq] at hv
  tauto

/-- The masked address is the remainder by the window's size. -/
theorem maskAddr_toNat (c : ValidCfg) (a : Word) : (maskAddr c.1 a).toNat = a.toNat % 2 ^ c.1.addrBits :=
  lowBits_toNat (by have := addrBits_cases c; omega) a

/-- Addresses that agree below `ADDR_BITS` have one masked address, and one lane. -/
theorem maskAddr_eq_of_mod {c : ValidCfg} {a b : Word} (h : a.toNat % 2 ^ c.1.addrBits = b.toNat % 2 ^ c.1.addrBits) :
    maskAddr c.1 a = maskAddr c.1 b ∧ laneShift a = laneShift b := by
  refine ⟨BitVec.eq_of_toNat_eq (by rw [maskAddr_toNat, maskAddr_toNat, h]), ?_⟩
  rw [laneShift_eq, laneShift_eq]
  rcases addrBits_cases c with bits | bits
  · rw [bits] at h
    omega
  · rw [bits] at h
    omega

/-- The aligned address, as a number. -/
theorem alignAddr_toNat (c : ValidCfg) (a : Word) :
    (alignAddr c.1 a).toNat =
      if c.1.inByteWindow (BitVec.ofNat 32 (a.toNat % 2 ^ c.1.addrBits)) then a.toNat % 2 ^ c.1.addrBits
      else a.toNat % 2 ^ c.1.addrBits / 4 * 4 := by
  rw [← maskAddr_toNat, BitVec.ofNat_toNat, BitVec.setWidth_eq, alignAddr]
  split
  · rfl
  · exact and_not_three_toNat _

/-- Masking an address's dword is taking the dword of the masked address. -/
theorem maskAddr_dword (c : Cfg) (a : Word) : maskAddr c (a &&& ~~~(3 : Word)) = maskAddr c a &&& ~~~(3 : Word) := by
  rw [maskAddr, maskAddr, BitVec.and_assoc, BitVec.and_assoc, BitVec.and_comm (~~~(3 : Word))]

/-- Outside the byte windows an address is aligned to its dword, and so is that dword itself, wherever it lies. -/
theorem alignAddr_outside {c : Cfg} {a : Word} (outside : c.inByteWindow (maskAddr c a) = false) :
    alignAddr c a = maskAddr c (a &&& ~~~(3 : Word)) ∧ alignAddr c (a &&& ~~~(3 : Word)) = alignAddr c a := by
  have own : alignAddr c a = maskAddr c (a &&& ~~~(3 : Word)) := by
    rw [alignAddr, outside, maskAddr_dword]
    rfl
  refine ⟨own, ?_⟩
  rw [own, alignAddr]
  split
  · rfl
  · rw [maskAddr_dword, BitVec.and_assoc, BitVec.and_self]

/-! ### One address for the six MMIO operations -/

section

variable {s : State} {a b : Word} (same : maskAddr s.cfg.1 a = maskAddr s.cfg.1 b)

include same

/-- Addresses of one masked address are aligned alike. -/
theorem alignAddr_congr : alignAddr s.cfg.1 a = alignAddr s.cfg.1 b := by
  rw [alignAddr, alignAddr, same]

/-- Accesses at them are of one width. -/
theorem accessWidth_congr : accessWidth s.cfg.1 a = accessWidth s.cfg.1 b := by
  rw [accessWidth, accessWidth, same]

theorem arbRead_congr : arbRead a s = arbRead b s := by
  simp only [arbRead, alignAddr_congr same, accessWidth_congr same]

theorem arbWrite_congr {t : State} (ht : t.cfg = s.cfg) (v : Word) : arbWrite a v t = arbWrite b v t := by
  simp only [arbWrite, ht, alignAddr_congr same, accessWidth_congr same]

/-- The six operations have one outcome at both addresses. -/
theorem exec_mmio_congr (lane : laneShift a = laneShift b) :
    exec (.mrd8 a) s = exec (.mrd8 b) s ∧ exec (.mrd16 a) s = exec (.mrd16 b) s ∧
    exec (.mrd32 a) s = exec (.mrd32 b) s ∧ (∀ v, exec (.mwr8 a v) s = exec (.mwr8 b v) s) ∧
    (∀ v, exec (.mwr16 a v) s = exec (.mwr16 b v) s) ∧ ∀ v, exec (.mwr32 a v) s = exec (.mwr32 b v) s := by
  have window : narrowInWindow s.cfg.1 a = narrowInWindow s.cfg.1 b := by rw [narrowInWindow, narrowInWindow, same]
  have read := arbRead_congr same
  have write (v : Word) : arbWrite a v s = arbWrite b v s := arbWrite_congr same rfl v
  have writeAfter (v : Word) : arbWrite a v (arbRead b s).1 = arbWrite b v (arbRead b s).1 :=
    arbWrite_congr same (moves_arbRead b s).cfg v
  have r8 : read8 a s = read8 b s := by simp only [read8, sub8, window, read, lane]
  have r16 : read16 a s = read16 b s := by simp only [read16, sub16, window, read, lane]
  have w8 (v : Byte) : write8 a v s = write8 b v s := by
    simp only [write8, merge8, window, read, lane, write, writeAfter]
  have w16 (v : Half) : write16 a v s = write16 b v s := by
    simp only [write16, merge16, window, read, lane, write, writeAfter]
  refine ⟨congrArg (fun p : State × Byte => complete s p.1 (.u8 p.2)) r8,
    congrArg (fun p : State × Half => complete s p.1 (.u16 p.2)) r16,
    congrArg (fun p : State × Word => complete s p.1 (.u32 p.2)) read,
    fun v => congrArg (complete s · .nothing) (w8 v),
    fun v => congrArg (complete s · .nothing) (w16 v), fun v => congrArg (complete s · .nothing) (write v)⟩

end

/-! ### One address for the port operations -/

/-- Two states agree but for the shim's address, and where the shim has an MMIO window for `DIAG` (rule R98). -/
def SameButAddr (t u : State) : Prop :=
  ∃ x d, u = { t with rmaAddr := x, diag := d } ∧ (t.cfg.1.rmaMmioWindow = none → d = t.diag)

/-- Any two addresses of the shim make two such states. -/
theorem sameButAddr_withAddr (s : State) (x y : Word) : SameButAddr (s.withAddr x) (s.withAddr y) :=
  ⟨y, s.diag, rfl, fun _ => rfl⟩

/-- One test of what both states share selects the same branch of both. -/
theorem SameButAddr.ite {p : Prop} [Decidable p] {t u t' u' : State} (h : SameButAddr t u) (h' : SameButAddr t' u') :
    SameButAddr (if p then t else t') (if p then u else u') := by
  split
  · exact h
  · exact h'

/-- Only a window of the shim's makes it a target. -/
theorem rmaMmioWindow_of_targetOf {c : Cfg} {a : Word} (h : targetOf c a = .rmaMmio) : c.rmaMmioWindow ≠ none := by
  intro noWindow
  simp only [targetOf, noWindow, Bool.false_eq_true, if_false] at h
  split at h <;> cases h

section

variable {s : State} {x y t u : Word} (same : maskAddr s.cfg.1 t = maskAddr s.cfg.1 u)

include same

/-- Reads proxied at one masked address do the same but for the address of a record in the shim's own window. -/
theorem passRead_sameButAddr :
    SameButAddr (passRead t (s.withAddr x)).1 (passRead u (s.withAddr y)).1 ∧
    (passRead u (s.withAddr y)).2 = (passRead t (s.withAddr x)).2 := by
  simp only [passRead, State.withAddr_cfg, ← alignAddr_congr same, ← accessWidth_congr same]
  cases target : targetOf s.cfg.1 (alignAddr s.cfg.1 t) with
  | rmaMmio => exact ⟨⟨y, _, rfl, fun noWindow => absurd noWindow (rmaMmioWindow_of_targetOf target)⟩, rfl⟩
  | unmapped => exact ⟨sameButAddr_withAddr (softRead (alignAddr s.cfg.1 t) s).1 x y, rfl⟩
  | region r =>
    simp only [regionRead_withAddr, and_true]
    exact sameButAddr_withAddr _ x y

/-- Writes proxied at one masked address do the same but for the address of a record in the shim's own window. -/
theorem passWrite_sameButAddr (v : Word) :
    SameButAddr (passWrite t v (s.withAddr x)) (passWrite u v (s.withAddr y)) := by
  simp only [passWrite, State.withAddr_cfg, ← alignAddr_congr same, ← accessWidth_congr same]
  cases target : targetOf s.cfg.1 (alignAddr s.cfg.1 t) with
  | rmaMmio => exact ⟨y, _, rfl, fun noWindow => absurd noWindow (rmaMmioWindow_of_targetOf target)⟩
  | unmapped => exact sameButAddr_withAddr (softWrite (alignAddr s.cfg.1 t) v s) x y
  | region r =>
    simp only [regionWrite_withAddr]
    exact sameButAddr_withAddr _ x y

end

section

variable {s : State} {a b : Word} (same : a.toNat % 2 ^ s.cfg.1.addrBits = b.toNat % 2 ^ s.cfg.1.addrBits)

include same

/-- An offset from either address masks to one address. -/
theorem maskAddr_passTarget (off : Nat) :
    maskAddr s.cfg.1 (passTarget (s.withAddr a) off) = maskAddr s.cfg.1 (passTarget (s.withAddr b) off) := by
  have sum : maskAddr s.cfg.1 (a + BitVec.ofNat 32 (off / 4 * 4)) =
      maskAddr s.cfg.1 (b + BitVec.ofNat 32 (off / 4 * 4)) := by
    refine (maskAddr_eq_of_mod ?_).1
    simp only [BitVec.toNat_add]
    generalize (BitVec.ofNat 32 (off / 4 * 4)).toNat = k
    rcases addrBits_cases s.cfg with bits | bits
    · rw [bits] at same ⊢
      omega
    · rw [bits] at same ⊢
      omega
  exact (maskAddr_dword _ _).trans ((congrArg (· &&& ~~~(3 : Word)) sum).trans (maskAddr_dword _ _).symm)

theorem rmaRead_sameButAddr (off : Nat) :
    SameButAddr (rmaRead off (s.withAddr a)).1 (rmaRead off (s.withAddr b)).1 ∧
    (rmaRead off (s.withAddr b)).2 = (rmaRead off (s.withAddr a)).2 := by
  obtain ⟨state, value⟩ := passRead_sameButAddr (x := a) (y := b) (maskAddr_passTarget same off)
  cases mode : s.rmaMode.getLsbD 0 with
  | true =>
    rw [rmaRead_pass (s := s.withAddr a) mode, rmaRead_pass (s := s.withAddr b) mode, value]
    exact ⟨state, rfl⟩
  | false =>
    rw [rmaRead_direct (s := s.withAddr a) mode, rmaRead_direct (s := s.withAddr b) mode]
    exact ⟨sameButAddr_withAddr s a b, rfl⟩

theorem rmaCommit_sameButAddr : SameButAddr (rmaCommit (s.withAddr a)) (rmaCommit (s.withAddr b)) := by
  obtain ⟨x, d, written, diag⟩ :=
    passWrite_sameButAddr (x := a) (y := b) (maskAddr_eq_of_mod same).1 s.rmaData
  simp only [rmaCommit, State.withAddr_rmaAddr, State.withAddr_rmaData, written]
  exact .ite ⟨x + 4, d, rfl, diag⟩ ⟨x, d, rfl, diag⟩

end

/-- A write of a lane of the shim. -/
theorem rmaWrite_sameButAddr {s : State} {a b : Word}
    (same : a.toNat % 2 ^ s.cfg.1.addrBits = b.toNat % 2 ^ s.cfg.1.addrBits) (off : Nat) (v : Byte) :
    SameButAddr (rmaWrite off v (s.withAddr a)) (rmaWrite off v (s.withAddr b)) := by
  refine .ite (sameButAddr_withAddr s _ _) (.ite ?_ (sameButAddr_withAddr { s with rmaData := _ } a b))
  exact rmaCommit_sameButAddr (s := { s with rmaData := setLane s.rmaData (off % 4) v }) same

/-- The port operations do the same from both addresses but for the address itself, and where the shim has an MMIO
window for `DIAG`. -/
theorem exec_port_sameButAddr {s : State} {a b : Word} (running : s.fatal = false)
    (same : a.toNat % 2 ^ s.cfg.1.addrBits = b.toNat % 2 ^ s.cfg.1.addrBits) (port : Half) (v : Byte) :
    ∀ i ∈ [Instr.iord8 port, .iowr8 port v], ∃ t u, exec i (s.withAddr a) = .next t ∧
      exec i (s.withAddr b) = .next u ∧ t.cfg = s.cfg ∧ SameButAddr t u := by
  have reads : SameButAddr (portIn port (s.withAddr a)).1 (portIn port (s.withAddr b)).1 ∧
      (portIn port (s.withAddr b)).2 = (portIn port (s.withAddr a)).2 := by
    by_cases own : isRmaPort s.cfg.1 port = true
    · have shim (x : Word) : portIn port (s.withAddr x) = rmaRead (rmaOff s.cfg.1 s.rmaMode port) (s.withAddr x) :=
        if_pos own
      rw [shim, shim]
      exact rmaRead_sameButAddr same _
    · have foreign (x : Word) : portIn port (s.withAddr x) = (s.drawn.withAddr x, Config.portRead s.draws) :=
        if_neg own
      rw [foreign, foreign]
      exact ⟨sameButAddr_withAddr s.drawn a b, rfl⟩
  have writes : SameButAddr (portOut port v (s.withAddr a)) (portOut port v (s.withAddr b)) :=
    .ite (rmaWrite_sameButAddr same _ v) (sameButAddr_withAddr s a b)
  intro i hi
  rcases List.mem_pair.1 hi with rfl | rfl
  · obtain ⟨⟨x, d, state, diag⟩, value⟩ := reads
    refine ⟨_, _, complete_next running _ _, complete_next running _ _, (moves_portIn port _).cfg, x, d, ?_, diag⟩
    rw [value, state]
    rfl
  · obtain ⟨x, d, state, diag⟩ := writes
    refine ⟨_, _, complete_next running _ _, complete_next running _ _, (moves_portOut port v _).cfg, x, d, ?_,
      diag⟩
    rw [state]
    rfl

/-! ### A misaligned access -/

/-- A palette byte is read and written alike in an access of any width. -/
theorem bank_access_palette {s : State} {e : RegEntry} {k : BitVec 2} (he : e ∈ s.cfg.1.rtab)
    (hk : e.kind = .plain (.pal k)) (m n : Width) :
    bankRead m e.addr s = bankRead n e.addr s ∧ ∀ v, bankWrite m e.addr v s = bankWrite n e.addr v s := by
  have hit := findEntry_of_mem (rtab_ok s.cfg).2.1 he
  simp only [bankRead, bankWrite, hit, entryRead, entryWrite, entryValue, entryData_pal _ hk, implies_true, and_self]

/-- Outside the byte windows an access is the access to its dword, where the dword is outside them too or names a
palette byte (rule R131). -/
theorem arb_dword {s : State} {a : Word} (outside : s.cfg.1.inByteWindow (maskAddr s.cfg.1 a) = false)
    (dword : s.cfg.1.inByteWindow (maskAddr s.cfg.1 (a &&& ~~~3)) = false ∨
      ∃ b k, targetOf s.cfg.1 (alignAddr s.cfg.1 a) = .region (.bank b) ∧
        ∃ e ∈ s.cfg.1.rtab, e.kind = .plain (.pal k) ∧ e.addr = alignAddr s.cfg.1 a) :
    arbRead (a &&& ~~~3) s = arbRead a s ∧ ∀ v, arbWrite (a &&& ~~~3) v s = arbWrite a v s := by
  have aligned : alignAddr s.cfg.1 (a &&& ~~~3) = alignAddr s.cfg.1 a := (alignAddr_outside outside).2
  rcases dword with outside' | ⟨b, k, target, e, he, hk, own⟩
  · have width : accessWidth s.cfg.1 (a &&& ~~~3) = accessWidth s.cfg.1 a :=
      (accessWidth_word outside').trans (accessWidth_word outside).symm
    simp only [arbRead, arbWrite, aligned, width, implies_true, and_self]
  · obtain ⟨read, write⟩ := bank_access_palette he hk (accessWidth s.cfg.1 (a &&& ~~~3)) (accessWidth s.cfg.1 a)
    rw [own] at read write
    simp only [arbRead, arbWrite, aligned, target, regionRead, regionWrite, read, write, implies_true, and_self]

/-- Settles O15: the operations read the address through its masked form, and outside the byte windows through its
dword. -/
theorem misalignedAccessIsTheAlignedAccess : Obligations.MisalignedAccessIsTheAlignedAccess := by
  rintro s _ a rfl
  refine ⟨alignAddr_toNat s.cfg a, fun b same => ?one, fun running outside dword => ?misaligned⟩
  case one =>
    obtain ⟨masked, lane⟩ := maskAddr_eq_of_mod same
    obtain ⟨r8, r16, r32, w8, w16, w32⟩ := exec_mmio_congr masked lane
    refine ⟨alignAddr_congr masked, r8, r16, r32, w8, w16, w32, fun running port v i hi => ?_⟩
    obtain ⟨t, _, first, second, cfg, x, d, rfl, diag⟩ := exec_port_sameButAddr running same port v i hi
    exact ⟨t, _, first, second, rfl, fun noWindow => diag (by rw [cfg]; exact noWindow)⟩
  case misaligned =>
    obtain ⟨read, write⟩ := arb_dword outside dword
    refine ⟨⟨_, complete_next running _ _, ?_⟩, fun v => ⟨_, complete_next running _ _, ?_⟩⟩
    · change complete s (arbRead (a &&& ~~~3) s).1 (.u32 (arbRead (a &&& ~~~3) s).2) = _
      rw [read, complete_next running]
    · change complete s (arbWrite (a &&& ~~~3) v s) .nothing = _
      rw [write, complete_next running]

end Sys2Proof.Machine
end

section
/-! The rows of the registers (rules R109, R190): a REG row is an access to its register's entry in the table, and a
`Computed` register's row reads and writes by the register's own rule, with its `ACCESS` record last. -/

namespace Sys2Proof.Machine

/-! ### Rows of the register table -/

/-- A REG row is the access to the entry that a configuration gives its register (rule R109). -/
def IsRowOf (row : Access → Instr) (entry : Cfg → RegEntry) : Prop :=
  ∀ acc s, exec (row acc) s = regAccess (entry s.cfg.1) acc s

/-- The rows of the six banks' pending registers. -/
theorem intrRows_spec : ∀ p ∈ intrRows,
    RegName.computed (.bankIntr p.1) ∈ requiredRegs ∧ IsRowOf p.2 (computedEntry · (.bankIntr p.1)) := by
  unfold intrRows
  repeat refine List.forall_mem_cons.2 ⟨⟨by decide, fun _ _ => rfl⟩, ?_⟩
  exact List.forall_mem_nil _

/-- The rows of the six banks' enable registers. -/
theorem intrEnRows_spec : ∀ p ∈ intrEnRows,
    RegName.computed (.bankIntrEn p.1) ∈ requiredRegs ∧ IsRowOf p.2 (computedEntry · (.bankIntrEn p.1)) := by
  unfold intrEnRows
  repeat refine List.forall_mem_cons.2 ⟨⟨by decide, fun _ _ => rfl⟩, ?_⟩
  exact List.forall_mem_nil _

/-- The rows of the named `Plain` registers of 32 bits. -/
theorem plainRows_spec : ∀ p ∈ plainRows,
    RegName.plain p.1 ∈ requiredRegs ∧ IsRowOf p.2 (plainEntry · p.1) := by
  unfold plainRows
  repeat refine List.forall_mem_cons.2 ⟨⟨by decide, fun _ _ => rfl⟩, ?_⟩
  exact List.forall_mem_nil _

/-- The rows of the palette bytes. -/
theorem palRows_spec : ∀ p ∈ palRows,
    RegName.plain (.pal p.1) ∈ requiredRegs ∧ IsRowOf p.2 (plainEntry · (.pal p.1)) := by
  unfold palRows
  repeat refine List.forall_mem_cons.2 ⟨⟨by decide, fun _ _ => rfl⟩, ?_⟩
  exact List.forall_mem_nil _

/-- What the row of a `Computed` register does: the read and the write of the register's rule at its entry, each with
the entry's `ACCESS` record last (rule R190). -/
theorem computed_row {r : ComputedReg} (required : RegName.computed r ∈ requiredRegs) {row : Access → Instr}
    (isRow : IsRowOf row (computedEntry · r)) {s : State} (running : s.fatal = false) {e : RegEntry}
    (he : e = computedEntry s.cfg.1 r) :
    e ∈ s.cfg.1.rtab ∧ e.name = .computed r ∧
    (∀ d, d = regData s.cfg.1 e (computedRead r s).2 →
      exec (row .read) s =
        .next (((computedRead r s).1.addDiag .access e.addr d (.reg e.name)).answer (.u32 d))) ∧
    ∀ w v, v = regData s.cfg.1 e w →
      exec (row (.write w)) s =
        .next (((computedWrite r e.addr v s).addDiag .access e.addr v (.reg e.name)).answer .nothing) := by
  obtain ⟨mem, -, name⟩ := computedEntry_spec s.cfg r required
  rw [← he] at mem name
  have isAccess (acc : Access) : exec (row acc) s = regAccess e acc s := he ▸ isRow acc s
  refine ⟨mem, name, ?_, ?_⟩
  · rintro _ rfl
    rw [isAccess, name]
    exact regAccess_read_computed r required running he
  · rintro w _ rfl
    rw [isAccess, name]
    exact regAccess_write_computed r required w running he

/-! ### The boot register and the straps -/

/-- Settles O25: `PMC_BOOT` is the read-only entry, and the straps' write is stored or logged as the revision says. -/
theorem bootIsReadOnlyAndStrapsNeedOverwrite : Obligations.BootIsReadOnlyAndStrapsNeedOverwrite := by
  intro s running
  constructor
  · obtain ⟨mem, -, name⟩ := bootEntry_spec s.cfg
    obtain ⟨read, write⟩ := regAccess_boot running rfl
    refine ⟨bootEntry s.cfg.1, mem, name, ?_, ?_⟩
    · rintro _ rfl
      rw [name]
      exact read
    · rintro w _ rfl
      rw [name]
      exact write w
  · obtain ⟨mem, name, read, write⟩ :=
      computed_row (r := .straps) (row := .pstrapsStraps) (by decide) (fun _ _ => rfl) running rfl
    refine ⟨_, mem, name, read, fun w v hv => ?_⟩
    rw [write w v hv, name]
    rfl

/-! ### The aggregator's registers -/

/-- The bits below `PMC_SW_BIT`, as a number. -/
theorem and_not_swBit_toNat (v : Word) : (v &&& ~~~swBit).toNat = v.toNat % 2 ^ 31 :=
  lowBits_toNat (w := 31) (by decide) v

/-- A write claims only bits that are not pending: the condition of the anomaly record, in numbers (rule R173). -/
theorem claims_only_idle_iff (v p : Word) :
    (v &&& ~~~swBit ≠ 0 ∧ v &&& ~~~swBit &&& p = 0) ↔
      (v.toNat % 2 ^ 31 ≠ 0 ∧ (v &&& p).toNat % 2 ^ 31 = 0) := by
  have zero (w : Word) : w &&& ~~~swBit = 0 ↔ w.toNat % 2 ^ 31 = 0 := by
    rw [← and_not_swBit_toNat, ← BitVec.toNat_inj]
    rfl
  have swap : v &&& ~~~swBit &&& p = v &&& p &&& ~~~swBit := by
    rw [BitVec.and_assoc, BitVec.and_comm (~~~swBit), BitVec.and_assoc]
  rw [swap, ne_eq, zero, zero]

/-- Settles O28: the read recomputes and answers the aggregate, and the write clears the bits it claims. -/
theorem aggregateRegisterIsWriteOneToClear : Obligations.AggregateRegisterIsWriteOneToClear := by
  intro s running
  obtain ⟨mem, name, read, write⟩ :=
    computed_row (r := .pmcIntr) (row := .pmcIntr) (by decide) (fun _ _ => rfl) running rfl
  refine ⟨_, mem, name, read, fun w v u hv hu => ?_⟩
  subst hu
  rw [write w v hv, computedWrite, writePmcIntr, name]
  simp only [claims_only_idle_iff]
  split <;> rfl

/-- A single bit of a word. -/
theorem one_shiftLeft_getLsbD {n : Nat} (hn : n < 32) (k : Nat) :
    ((1 : Word) <<< n).getLsbD k = decide (k = n) := by
  have one : (1 : Word) <<< n = BitVec.twoPow 32 n := by rw [BitVec.twoPow_eq]; rfl
  rw [one, BitVec.getLsbD_twoPow, decide_eq_true hn, Bool.true_and]
  exact decide_eq_decide.2 eq_comm

/-- `EN_MASK` has the two implemented bits (rule R170). -/
theorem enMask_getLsbD (c : ValidCfg) (k : Nat) :
    (enMask c.1).getLsbD k = (decide (k = c.1.pmcEnHwBit) || decide (k = c.1.pmcEnSwBit)) := by
  have hv := c.2
  simp only [Cfg.valid, Cfg.scalarsOk, Bool.and_eq_true, decide_eq_true_eq] at hv
  have bits : c.1.pmcEnHwBit < 32 ∧ c.1.pmcEnSwBit < 32 := by tauto
  rw [enMask, BitVec.getLsbD_or, one_shiftLeft_getLsbD bits.1, one_shiftLeft_getLsbD bits.2]

/-- Settles O29: `PMC_INTR_EN` is stored under `EN_MASK`, a bank's enables as they come. -/
theorem enableRegistersAreStored : Obligations.EnableRegistersAreStored := by
  intro s running
  constructor
  · obtain ⟨mem, name, read, write⟩ :=
      computed_row (r := .pmcIntrEn) (row := .pmcIntrEn) (by decide) (fun _ _ => rfl) running rfl
    refine ⟨_, mem, name, read, fun w v hv => ⟨v &&& enMask s.cfg.1, fun k => ?_, write w v hv⟩⟩
    rw [BitVec.getLsbD_and, enMask_getLsbD]
  · intro p hp
    obtain ⟨required, isRow⟩ := intrEnRows_spec p hp
    exact ⟨_, computed_row required isRow running rfl⟩

/-- Settles O30: the six rows are those of the banks' pending registers. -/
theorem bankPendingRegisterIsWriteOneToClear : Obligations.BankPendingRegisterIsWriteOneToClear := by
  intro s running p hp
  obtain ⟨required, isRow⟩ := intrRows_spec p hp
  exact ⟨_, computed_row required isRow running rfl⟩

/-! ### The dividers -/

/-- A field of 0 is taken as 1 (rule R230). -/
theorem clampOne_eq_max (n : Nat) : clampOne n = max n 1 := by
  unfold clampOne
  split <;> omega

/-- The synthesised period, as one fraction (rule R230). -/
theorem synthPeriod_eq (c : Cfg) (w : Word) :
    synthPeriod c w =
      1000000 * c.fixQuotient *
        ((max (fieldOf w c.pllM.hi c.pllM.lo) 1 * 2 ^ fieldOf w c.pllP.hi c.pllP.lo : Nat) : Rat) /
      (c.crystalHz * ((max (fieldOf w c.pllN.hi c.pllN.lo) 1 : Nat) : Rat)) := by
  rw [synthPeriod, synthFreq, clampOne_eq_max, clampOne_eq_max, div_div_eq_mul_div]

/-- Settles O31: each divider's write stores it and arms its timer with the synthesised period. -/
theorem dividerWriteArmsItsTimer : Obligations.DividerWriteArmsItsTimer := by
  intro s running
  constructor
  · obtain ⟨mem, name, read, write⟩ :=
      computed_row (r := .vpll) (row := .pramdacVpll) (by decide) (fun _ _ => rfl) running rfl
    refine ⟨_, mem, name, read, fun w v m n p hv hm hn hp => ?_⟩
    subst hm hn hp
    rw [write w v hv, computedWrite, writeVpll, synthPeriod_eq]
    rfl
  · obtain ⟨mem, name, read, write⟩ :=
      computed_row (r := .mpll) (row := .pramdacMpll) (by decide) (fun _ _ => rfl) running rfl
    refine ⟨_, mem, name, read, fun w v m n p hv hm hn hp => ?_⟩
    subst hm hn hp
    rw [write w v hv, computedWrite, writeMpll, synthPeriod_eq]

/-! ### The halves of the counter and of the alarm -/

/-- The low half is bits 31 to 0. -/
theorem loHalf_eq (t : DWord) : loHalf t = t.extractLsb' 0 32 := by
  ext i hi
  simp [loHalf]

/-- The high half is bits 63 to 32. -/
theorem hiHalf_eq (t : DWord) : hiHalf t = t.extractLsb' 32 32 := by
  ext i hi
  simp [hiHalf]

/-- A write of the low half is an OR with the value below zeros (rule R241). -/
theorem orLo_eq (t : DWord) (v : Word) : orLo t v = t ||| (0#32 ++ v) := by
  have widened : v.setWidth 64 = 0#32 ++ v := BitVec.setWidth_eq_append (by decide)
  rw [orLo, widened]

/-- A write of the high half is an OR with the value above zeros (rule R241). -/
theorem orHi_eq (t : DWord) (v : Word) : orHi t v = t ||| (v ++ 0#32) := by
  have shifted : v.setWidth 64 <<< 32 = v ++ 0#32 := by
    refine BitVec.eq_of_getLsbD_eq fun i hi => ?_
    simp only [BitVec.getLsbD_shiftLeft, BitVec.getLsbD_setWidth, BitVec.getLsbD_append]
    by_cases low : i < 32
    · simp [low]
    · simp [low, hi, show i - 32 < 64 by omega]
  rw [orHi, shifted]

/-- Settles O32: a read takes its half out of the 64 bits, and a write ORs the value into its half. -/
theorem counterAndAlarmHalvesAreOrWritten : Obligations.CounterAndAlarmHalvesAreOrWritten := by
  intro s running
  simp only [← loHalf_eq, ← hiHalf_eq, ← orLo_eq, ← orHi_eq]
  exact ⟨⟨_, computed_row (r := .timeLo) (by decide) (fun _ _ => rfl) running rfl⟩,
    ⟨_, computed_row (r := .timeHi) (by decide) (fun _ _ => rfl) running rfl⟩,
    ⟨_, computed_row (r := .alarmLo) (by decide) (fun _ _ => rfl) running rfl⟩,
    ⟨_, computed_row (r := .alarmHi) (by decide) (fun _ _ => rfl) running rfl⟩⟩

end Sys2Proof.Machine
end

section
/-! Accesses of any width to an entry of the register table, reached by its REG row or through a bank's RANGE row
(rules R190, R192): what each appends, and that a read answers what a write stored (rule R153). -/

namespace Sys2Proof.Machine

/-! ### An access to an entry -/

/-- An access of a width to an entry, as an operation (rule R190). -/
def entryAccess (n : Width) (e : RegEntry) (acc : Access) (s : State) : Outcome :=
  match acc with
  | .read => complete s (entryRead n e s).1 (.u32 (entryRead n e s).2)
  | .write v => complete s (entryWrite n e v s) .nothing

/-- A REG row's access is of the width of its register's own address. -/
theorem regAccess_eq (e : RegEntry) (acc : Access) (s : State) :
    regAccess e acc s = entryAccess (regWidth s.cfg.1 e) e acc s := by
  cases acc <;> rfl

section

variable {s : State} (running : s.fatal = false) (n : Width) (e : RegEntry)

include running

theorem entryAccess_read : entryAccess n e .read s =
    .next ((entryRead n e s).1.answer (.u32 (entryValue n e s))) :=
  complete_next running _ _

theorem entryAccess_write (v : Word) : entryAccess n e (.write v) s = .next ((entryWrite n e v s).answer .nothing) :=
  complete_next running _ _

end

/-- A read appends the entry's record last, with the value it answers. -/
theorem entryRead_getLast (n : Width) (e : RegEntry) (s : State) :
    (entryRead n e s).1.diag.getLast? =
      some { kind := .access, addr := e.addr, value := entryValue n e s, name := .reg e.name } :=
  List.getLast?_concat

/-- A write appends the entry's record last, with the datum it stores. -/
theorem entryWrite_getLast (n : Width) (e : RegEntry) (v : Word) (s : State) :
    (entryWrite n e v s).diag.getLast? =
      some { kind := .access, addr := e.addr, value := entryData n e v, name := .reg e.name } :=
  List.getLast?_concat

/-! ### The RANGE rows of the banks -/

/-- The eleven rows are those of a bank (rule R6). -/
theorem bankRangeRows_region : ∀ r ∈ bankRangeRows, ∃ b, r.region = some (.bank b) := by
  unfold bankRangeRows
  repeat refine List.forall_mem_cons.2 ⟨⟨_, rfl⟩, ?_⟩
  exact List.forall_mem_nil _

section

variable {r : RangeRow} (hr : r ∈ bankRangeRows) {a : BitVec 25} {s : State}

include hr

/-- At an entry's address the row is the access to the entry (rule R190). -/
theorem exec_bankRow_hit {e : RegEntry} (he : e ∈ s.cfg.1.rtab) (own : e.addr = rangeAddr a s) (acc : Access) :
    exec (rangeInstr r a acc) s = entryAccess (rangeWidth a s) e acc s := by
  obtain ⟨b, region⟩ := bankRangeRows_region r hr
  have hit : findEntry s.cfg.1.rtab (rangeAddr a s) = some e := own ▸ findEntry_of_mem (rtab_pairsOk s.cfg) he
  rw [exec_rangeInstr, region]
  cases acc with
  | read => simp only [rangeAccess, regionRead, bankRead, hit, entryAccess]
  | write v => simp only [rangeAccess, regionWrite, bankWrite, hit, entryAccess]

/-- At an address that no entry has it is the access to an unimplemented register (rule R192). -/
theorem exec_bankRow_miss (missing : ∀ e ∈ s.cfg.1.rtab, e.addr ≠ rangeAddr a s) (acc : Access) :
    exec (rangeInstr r a acc) s = unimplAccess (rangeAddr a s) acc s := by
  obtain ⟨b, region⟩ := bankRangeRows_region r hr
  have miss := findEntry_eq_none missing
  rw [exec_rangeInstr, region]
  cases acc with
  | read => simp only [rangeAccess, regionRead, bankRead, miss, unimplAccess]
  | write v => simp only [rangeAccess, regionWrite, bankWrite, miss, unimplAccess]

end

/-- Settles O24: an entry's access logs it last, and a miss is the access to an unimplemented register. -/
theorem bankRowConsultsTheRegisterTable : Obligations.BankRowConsultsTheRegisterTable := by
  intro s a v miss running hmiss
  have unimpl (x : Word) : unimplAccess x .read s = .next { miss x 0 with reply := .u32 0 } ∧
      unimplAccess x (.write v) s = .next { miss x v with reply := .nothing } := by
    rw [hmiss, hmiss]
    exact ⟨complete_next running _ _, complete_next running _ _⟩
  refine ⟨fun r hr => ⟨fun e he own => ⟨?read, ?write⟩, fun missing => ?miss⟩, unimpl _⟩
  case read =>
    rw [exec_bankRow_hit hr he own]
    exact ⟨_, _, entryAccess_read running _ e, rfl, entryRead_getLast _ e s⟩
  case write =>
    rw [exec_bankRow_hit hr he own]
    exact ⟨_, entryAccess_write running _ e v, entryWrite_getLast _ e v s⟩
  case miss =>
    rw [exec_bankRow_miss hr missing, exec_bankRow_miss hr missing]
    exact unimpl _

/-! ### A read after a write -/

/-- A `Plain` register's cell holds what was stored into it; a palette byte holds 8 bits (rules R24, R39). -/
theorem State.plainGet_plainSet_same (s : State) (p : PlainReg) (a : Word) {x : Word}
    (fits : ∀ k, p = .pal k → x &&& 0xFF = x) : (s.plainSet p a x).plainGet p a = x := by
  cases p with
  | pal k =>
    have byte : (x.setWidth 8).setWidth 32 = x := (and_low_byte x).symm.trans (fits k rfl)
    simp only [State.plainGet, State.plainSet, Vector.getElem_set_self, byte]
  | extra k => simp only [State.plainGet, State.plainSet, extraGet_extraSet, if_true]
  | _ => rfl

/-- The cells of the `Plain` registers are read by no record and no reply. -/
theorem State.plainGet_logged (s : State) (p : PlainReg) (a : Word) (k : DiagKind) (x v : Word) (n : DiagName)
    (r : Reply) : ((s.addDiag k x v n).answer r).plainGet p a = s.plainGet p a := by
  cases p <;> rfl

/-- A `Computed` register reads as before a record and a reply. -/
theorem computedRead_logged (c : ComputedReg) (s : State) (k : DiagKind) (x v : Word) (n : DiagName) (r : Reply) :
    (computedRead c ((s.addDiag k x v n).answer r)).2 = (computedRead c s).2 := by
  cases c with
  | pmcIntr => exact (recompute_pmcIntr _ _).trans (recompute_pmcIntr false s).symm
  | _ => rfl

section

variable (n : Width) {e : RegEntry} (v : Word) (s : State) (r : Reply)

/-- The datum of a masked datum is itself: what an entry stores is of the width that is read. -/
theorem entryData_stored (m : Word) : entryData n e (entryData n e v &&& m) = entryData n e v &&& m := by
  rw [entryData_and, entryData_entryData]

/-- A `Plain` entry reads as it was written, under its mask (rule R191). -/
theorem entryValue_written_plain {p : PlainReg} (hk : e.kind = .plain p) :
    entryValue n e ((entryWrite n e v s).answer r) = entryData n e v &&& e.mask := by
  have fits : ∀ k, p = .pal k → entryData n e v &&& e.mask &&& 0xFF = entryData n e v &&& e.mask := by
    rintro k rfl
    rw [← entryData_pal n hk, entryData_stored]
  simp only [entryValue, kindRead, entryWrite, kindWrite, hk, State.plainGet_logged]
  rw [State.plainGet_plainSet_same _ _ _ fits, BitVec.and_assoc, BitVec.and_self, entryData_stored]

/-- A `Computed` entry reads as it was written, under the mask of what its rule stores. -/
theorem entryValue_written_computed {c : ComputedReg} (hk : e.kind = .computed c) {m : Word}
    (stored : ∀ a d, (computedRead c (computedWrite c a d s)).2 = d &&& m) :
    entryValue n e ((entryWrite n e v s).answer r) = entryData n e v &&& m := by
  simp only [entryValue, kindRead, entryWrite, kindWrite, hk, computedRead_logged, stored, entryData_stored]

end

section

variable {s : State} (running : s.fatal = false) (v : Word)

include running

/-- A read of an entry after a write of it, of one width, answers the value of the entry written. -/
theorem entryAccess_read_after_write (n : Width) (e : RegEntry) :
    ∃ t u, entryAccess n e (.write v) s = .next t ∧ t.cfg = s.cfg ∧ entryAccess n e .read t = .next u ∧
      u.reply = .u32 (entryValue n e ((entryWrite n e v s).answer .nothing)) := by
  have moves := (moves_entryWrite n e v s).step (.answer _ .nothing)
  exact ⟨_, _, entryAccess_write running n e v, moves.cfg, entryAccess_read (moves.fatal.trans running) n e, rfl⟩

/-- A REG row's read after its write. -/
theorem row_read_after_write {row : Access → Instr} {entry : Cfg → RegEntry} (isRow : IsRowOf row entry)
    {e : RegEntry} (he : e = entry s.cfg.1) {x : Word}
    (value : entryValue (regWidth s.cfg.1 e) e ((entryWrite (regWidth s.cfg.1 e) e v s).answer .nothing) = x) :
    ∃ t u, exec (row (.write v)) s = .next t ∧ exec (row .read) t = .next u ∧ u.reply = .u32 x := by
  obtain ⟨t, u, write, cfg, read, reply⟩ := entryAccess_read_after_write running v (regWidth s.cfg.1 e) e
  refine ⟨t, u, ?_, ?_, value ▸ reply⟩
  · rw [isRow, ← he, regAccess_eq, write]
  · rw [isRow, regAccess_eq, cfg, ← he, read]

/-- The row of a named `Plain` register reads back what it wrote, under the entry's mask. -/
theorem plain_row_reads_back {p : PlainReg} (required : RegName.plain p ∈ requiredRegs) {row : Access → Instr}
    (isRow : IsRowOf row (plainEntry · p)) {e : RegEntry} (he : e = plainEntry s.cfg.1 p) :
    e ∈ s.cfg.1.rtab ∧ e.name = .plain p ∧
    ∃ t u, exec (row (.write v)) s = .next t ∧ exec (row .read) t = .next u ∧
      u.reply = .u32 (regData s.cfg.1 e v &&& e.mask) := by
  obtain ⟨mem, kind, name⟩ := plainEntry_spec s.cfg p required
  rw [← he] at mem kind name
  exact ⟨mem, name, row_read_after_write running v isRow he (entryValue_written_plain _ v s _ kind)⟩

/-- The row of a `Computed` register whose rule stores the datum under a mask reads it back. -/
theorem computed_row_reads_back_masked {c : ComputedReg} (required : RegName.computed c ∈ requiredRegs)
    {row : Access → Instr} (isRow : IsRowOf row (computedEntry · c)) {m : Word}
    (stored : ∀ a d, (computedRead c (computedWrite c a d s)).2 = d &&& m) {e : RegEntry}
    (he : e = computedEntry s.cfg.1 c) :
    e ∈ s.cfg.1.rtab ∧ e.name = .computed c ∧
    ∃ t u, exec (row (.write v)) s = .next t ∧ exec (row .read) t = .next u ∧
      u.reply = .u32 (regData s.cfg.1 e v &&& m) := by
  obtain ⟨mem, kind, name⟩ := computedEntry_spec s.cfg c required
  rw [← he] at mem kind name
  exact ⟨mem, name, row_read_after_write running v isRow he (entryValue_written_computed _ v s _ kind stored)⟩

/-- The row of a `Computed` register whose rule stores the whole datum reads it back. -/
theorem computed_row_reads_back {c : ComputedReg} (required : RegName.computed c ∈ requiredRegs)
    {row : Access → Instr} (isRow : IsRowOf row (computedEntry · c))
    (stored : ∀ a d, (computedRead c (computedWrite c a d s)).2 = d) :
    ∃ e ∈ s.cfg.1.rtab, e.name = .computed c ∧
    ∃ t u, exec (row (.write v)) s = .next t ∧ exec (row .read) t = .next u ∧
      u.reply = .u32 (regData s.cfg.1 e v) := by
  have whole : ∀ a d, (computedRead c (computedWrite c a d s)).2 = d &&& BitVec.allOnes 32 := by
    simpa only [BitVec.and_allOnes] using stored
  have back := computed_row_reads_back_masked running v required isRow whole rfl
  rw [BitVec.and_allOnes] at back
  exact ⟨_, back⟩

end

/-- Settles O37: each of these registers stores the datum of the write, which is the datum a read of it shows. -/
theorem readReturnsWhatWasWritten : Obligations.ReadReturnsWhatWasWritten := by
  intro s v running
  refine ⟨fun p hp => ?plain, fun p hp => ?palette, fun r hr a k e he hk own => ?added, ?intrEn,
    fun p hp => ?bankIntrEn, ?vpll, ?mpll, fun overwrite => ?straps⟩
  case plain =>
    obtain ⟨required, isRow⟩ := plainRows_spec p hp
    exact ⟨_, plain_row_reads_back running v required isRow rfl⟩
  case palette =>
    obtain ⟨required, isRow⟩ := palRows_spec p hp
    obtain ⟨-, kind, -⟩ := plainEntry_spec s.cfg _ required
    have back := plain_row_reads_back running v required isRow rfl
    rw [regData, entryData_pal _ kind] at back
    exact ⟨_, back⟩
  case added =>
    obtain ⟨t, u, write, cfg, read, reply⟩ := entryAccess_read_after_write running v (rangeWidth a s) e
    have width : rangeWidth a t = rangeWidth a s := by rw [rangeWidth, cfg, rangeWidth]
    have addr : rangeAddr a t = rangeAddr a s := by rw [rangeAddr, cfg, rangeAddr]
    refine ⟨t, u, ?_, ?_, reply.trans (congrArg _ (entryValue_written_plain _ v s _ hk))⟩
    · rw [exec_bankRow_hit hr he own, write]
    · rw [exec_bankRow_hit hr (cfg ▸ he) (own.trans addr.symm), width, read]
  case intrEn =>
    exact ⟨_, computed_row_reads_back_masked (c := .pmcIntrEn) running v (by decide) (fun _ _ => rfl)
      (fun _ _ => recompute_pmcIntrEn _ _) rfl⟩
  case bankIntrEn =>
    obtain ⟨required, isRow⟩ := intrEnRows_spec p hp
    refine computed_row_reads_back running v required isRow fun _ d => ?_
    simp [computedRead, computedWrite, writeBankIntrEn, State.intrEnOf]
  case vpll => exact computed_row_reads_back running v (by decide) (fun _ _ => rfl) fun _ _ => rfl
  case mpll => exact computed_row_reads_back running v (by decide) (fun _ _ => rfl) fun _ _ => rfl
  case straps =>
    refine computed_row_reads_back running v (by decide) (fun _ _ => rfl) fun _ d => ?_
    simp only [computedRead, computedWrite, writeStraps, if_pos overwrite]

end Sys2Proof.Machine
end

section
/-! The targets that are no register: an unmapped address (rule R139), USER (rule R151), the byte arrays (rules R146 to
R148) and the PCI mirror (rule R306). -/

namespace Sys2Proof.Machine

/-! ### Unmapped addresses -/

/-- Settles O16: the operation at an unmapped address and the row of none are both the miss, which logs alone. -/
theorem unmappedAddressSoftFails : Obligations.UnmappedAddressSoftFails := by
  intro s a v b miss running hmiss
  have soft (x : Word) :
      complete s (softRead x s).1 (.u32 (softRead x s).2) = .next { miss x 0 with reply := .u32 0 } ∧
      complete s (softWrite x v s) .nothing = .next { miss x v with reply := .nothing } := by
    rw [hmiss, hmiss]
    exact ⟨complete_next running _ _, complete_next running _ _⟩
  refine ⟨fun target => ?_, soft (rangeAddr b s)⟩
  have read : arbRead a s = softRead (alignAddr s.cfg.1 a) s := by simp only [arbRead, target]
  have write : arbWrite a v s = softWrite (alignAddr s.cfg.1 a) v s := by simp only [arbWrite, target]
  change complete s (arbRead a s).1 (.u32 (arbRead a s).2) = _ ∧ complete s (arbWrite a v s) .nothing = _
  rw [read, write]
  exact soft _

/-! ### USER -/

/-- Settles O23: the read is a draw and the write one event, each of the width of the access. -/
theorem userTargetHandsOverToPfifo : Obligations.UserTargetHandsOverToPfifo :=
  fun s a v running =>
    ⟨complete_next running s.drawn (.u32 (accessData (rangeWidth a s) (Config.userRead s.draws))),
      complete_next running (s.addEvent (.userWrite (rangeAddr a s) (accessData (rangeWidth a s) v))) .nothing⟩

/-! ### Byte arrays -/

/-- A read of a byte array's row is a read of the array at the address less the target's low end, and leaves the
state. -/
theorem exec_memoryRow_read (a : BitVec 25) (s : State) : ∀ p ∈ memoryRows,
    exec (p.2.2 a .read) s =
      complete s s (.u32 (s.memRead p.2.1 (regionOff s.cfg.1 p.1 (rangeAddr a s)) (rangeWidth a s))) := by
  unfold memoryRows
  repeat refine List.forall_mem_cons.2 ⟨rfl, ?_⟩
  exact List.forall_mem_nil _

/-- A read by an access: one byte inside a byte window, else four, the least significant first (rules R61, R131). -/
theorem State.memRead_access (s : State) (sp : Space) (off : Nat) (c : Cfg) (a : Word) :
    s.memRead sp off (accessWidth c a) =
      if c.inByteWindow (maskAddr c a) then (s.byteAt sp off).setWidth 32
      else s.byteAt sp (off + 3) ++ s.byteAt sp (off + 2) ++ s.byteAt sp (off + 1) ++ s.byteAt sp off := by
  unfold accessWidth
  split
  · exact wordOf_byte _
  · rfl

/-- Settles O21: the row reads the array by the width of the access. -/
theorem memoryTargetReadsFourBytes : Obligations.MemoryTargetReadsFourBytes := by
  rintro s a inside running rfl p hp o d rfl rfl
  rw [exec_memoryRow_read a s p hp, complete_next running, rangeWidth, State.memRead_access]
  rfl

/-! ### The PCI mirror -/

/-- The low byte of four assembled ones is the first. -/
theorem wordOf_low (b0 b1 b2 b3 : Byte) : wordOf b0 b1 b2 b3 &&& 0xFF = b0.setWidth 32 := by
  have first : (wordOf b0 b1 b2 b3).setWidth 8 = b0 := BitVec.setWidth_append_eq_right
  rw [and_low_byte, first]

section

variable {s : State} (running : s.fatal = false)

include running

/-- A configuration write of function 0 is the store of one configuration byte (rules R300, R302). -/
theorem exec_cfgwr8 (o v : Byte) : exec (.cfgwr8 0 o v) s = .next ((cfgWrite o v s).answer .nothing) :=
  complete_next running _ _

/-- An operation list that begins with a configuration write goes on from the byte stored. -/
theorem runOps_cfgwr8 (o v : Byte) (rest : List Instr) :
    runOps (.cfgwr8 0 o v :: rest) s = runOps rest ((cfgWrite o v s).answer .nothing) := by
  rw [runOps, exec_cfgwr8 running]

end

/-- A configuration write leaves the stop as it was. -/
theorem cfgWrite_running {s : State} (running : s.fatal = false) (o v : Byte) :
    ((cfgWrite o v s).answer .nothing).fatal = false :=
  (moves_cfgWrite o v s).fatal.trans running

/-- Settles O57: outside a byte window the mirror reads and writes four configuration bytes, and the reply that each
write leaves is read by none after it; inside one it is a single byte. -/
theorem pciMirrorIsTheConfigurationBytes : Obligations.PciMirrorIsTheConfigurationBytes := by
  rintro s a v o inside running hinside rfl
  generalize ho : BitVec.ofNat 8 (rangeAddr a s - regionLo s.cfg.1.amap .pbusPci).toNat = o
  have offset : mirrorOff s.cfg.1 (rangeAddr a s) = o := ho
  have read : exec (.rangePbusPci a .read) s =
      .next (s.answer (.u32 (accessData (rangeWidth a s) (mirrorRead o s)))) := by
    rw [← offset]
    exact complete_next running _ _
  have write : exec (.rangePbusPci a (.write v)) s =
      .next ((if rangeWidth a s = .b1 then cfgWrite o (byteOf v 0) s else mirrorWrite o v s).answer .nothing) := by
    rw [← offset]
    exact complete_next running _ _
  refine ⟨fun window => ?_, fun noWindow => ?_⟩
  · have width : rangeWidth a s = .b1 := accessWidth_byte (hinside.symm.trans window)
    rw [read, write, width, if_pos rfl, exec_cfgwr8 running, accessData, mirrorRead, wordOf_low]
    exact ⟨rfl, rfl⟩
  · have width : rangeWidth a s = .b4 := accessWidth_word (hinside.symm.trans noWindow)
    have running₁ := cfgWrite_running running o (byteOf v 0)
    have running₂ := cfgWrite_running running₁ (o + 1) (byteOf v 1)
    have running₃ := cfgWrite_running running₂ (o + 2) (byteOf v 2)
    rw [read, write, width, if_neg (by decide), runOps_cfgwr8 running, runOps_cfgwr8 running₁,
      runOps_cfgwr8 running₂, runOps_cfgwr8 running₃]
    refine ⟨rfl, ?_⟩
    simp only [runOps, cfgWrite_answer, State.answer_answer, mirrorWrite]

end Sys2Proof.Machine
end

section
/-! Accesses inside a byte window (rules R140, R142 to R144): what the arbiter does there, and the `Plain` entries that
a store into one of them leaves. -/

namespace Sys2Proof.Machine

/-! ### `Plain` entries at two addresses -/

/-- A pair of entries of the table that share a name is of none of rule R7's. -/
theorem not_required_of_entryPairOk {x y : RegEntry} (h : entryPairOk x y = true) (same : x.name = y.name) :
    x.name ∉ requiredRegs := by
  simp only [entryPairOk, same, ne_eq, not_true_eq_false, decide_false, Bool.false_or, Bool.and_eq_true,
    Bool.not_eq_true', decide_eq_false_iff_not] at h
  rw [same]
  exact h.2

/-- Two entries at two addresses that share a name are none of rule R7's (rule R195). -/
theorem not_required_of_same_name {l : List RegEntry} (hp : pairsOk entryPairOk l = true) {e f : RegEntry}
    (he : e ∈ l) (hf : f ∈ l) (apart : f.addr ≠ e.addr) (same : f.name = e.name) : e.name ∉ requiredRegs := by
  induction l with
  | nil => cases he
  | cons x xs ih =>
    simp only [pairsOk, Bool.and_eq_true, List.all_eq_true] at hp
    obtain ⟨first, rest⟩ := hp
    rcases List.mem_cons.1 he with rfl | he'
    · rcases List.mem_cons.1 hf with rfl | hf'
      · exact absurd rfl apart
      · exact not_required_of_entryPairOk (first f hf') same.symm
    · rcases List.mem_cons.1 hf with rfl | hf'
      · exact same ▸ not_required_of_entryPairOk (first e he') same
      · exact ih rest he' hf'

/-- A store into a `Plain` entry's cell leaves the cell of every entry at another address. -/
theorem plainGet_plainSet_apart (s : State) {e f : RegEntry} {p q : PlainReg} (he : e ∈ s.cfg.1.rtab)
    (hf : f ∈ s.cfg.1.rtab) (hp : e.kind = .plain p) (hq : f.kind = .plain q) (apart : f.addr ≠ e.addr) (x : Word) :
    (s.plainSet p e.addr x).plainGet q f.addr = s.plainGet q f.addr := by
  by_cases same : q = p
  · subst same
    have name : f.name = e.name := by simp only [RegEntry.name, hp, hq]
    have added := not_required_of_same_name (rtab_pairsOk s.cfg) he hf apart name
    simp only [RegEntry.name, hp] at added
    cases q with
    | extra k => exact (extraGet_extraSet _ _ _ _).trans (if_neg apart)
    | pal k => exact absurd ((by decide : ∀ j, RegName.plain (.pal j) ∈ requiredRegs) k) added
    | _ => exact absurd (by decide) added
  · exact s.plainGet_plainSet_other p q _ _ x same apart

/-! ### The arbiter inside a byte window -/

section

variable {s : State} {a : Word} (inside : s.cfg.1.inByteWindow (maskAddr s.cfg.1 a) = true)

include inside

/-- Inside a byte window an address is its own alignment (rule R131). -/
theorem alignAddr_inside : alignAddr s.cfg.1 a = maskAddr s.cfg.1 a := by
  rw [alignAddr, if_pos inside]

/-- A 32-bit write depends on bits 7 to 0 of its value, but where a record keeps it whole (rule R144). -/
theorem arbWrite_byte (mapped : targetOf s.cfg.1 (maskAddr s.cfg.1 a) ≠ .unmapped)
    (hit : ∀ b, targetOf s.cfg.1 (maskAddr s.cfg.1 a) = .region (.bank b) →
      ∃ e ∈ s.cfg.1.rtab, e.addr = maskAddr s.cfg.1 a)
    {x y : Word} (low : x &&& 0xFF = y &&& 0xFF) : arbWrite a x s = arbWrite a y s := by
  simp only [arbWrite, alignAddr_inside inside, accessWidth_byte inside]
  cases target : targetOf s.cfg.1 (maskAddr s.cfg.1 a) with
  | rmaMmio => simp only [byteOf_zero_of_low low]
  | unmapped => exact absurd target mapped
  | region g => exact regionWrite_byte g (fun b hb => hit b (hb ▸ target)) low

/-- At an entry's address a 32-bit operation is the access of one byte to the entry (rules R144, R190). -/
theorem exec_busOp_inside {e : RegEntry} (he : e ∈ s.cfg.1.rtab) (own : e.addr = maskAddr s.cfg.1 a) {b : Bank}
    (target : targetOf s.cfg.1 (maskAddr s.cfg.1 a) = .region (.bank b)) (acc : Access) :
    exec (busOp a acc) s = entryAccess .b1 e acc s := by
  have hit : findEntry s.cfg.1.rtab (maskAddr s.cfg.1 a) = some e := own ▸ findEntry_of_mem (rtab_pairsOk s.cfg) he
  cases acc with
  | read =>
    change complete s (arbRead a s).1 (.u32 (arbRead a s).2) = _
    simp only [arbRead, alignAddr_inside inside, accessWidth_byte inside, target, regionRead, bankRead, hit,
      entryAccess]
  | write v =>
    change complete s (arbWrite a v s) .nothing = _
    simp only [arbWrite, alignAddr_inside inside, accessWidth_byte inside, target, regionWrite, bankWrite, hit,
      entryAccess]

theorem read8_inside : read8 a s = ((arbRead a s).1, byteOf (arbRead a s).2 0) := by
  simp [read8, narrowInWindow, inside]

theorem read16_inside : read16 a s = ((arbRead a s).1, (byteOf (arbRead a s).2 0).setWidth 16) := by
  simp [read16, narrowInWindow, inside]

theorem write8_inside (v : Byte) : write8 a v s = arbWrite a (v.setWidth 32) s := by
  simp [write8, narrowInWindow, inside]

theorem write16_inside (v : Half) : write16 a v s = arbWrite a ((v.setWidth 8).setWidth 32) s := by
  simp [write16, narrowInWindow, inside]

end

/-- The low byte of a byte zero-extended is that byte. -/
theorem byteOf_setWidth (d : Byte) : byteOf (d.setWidth 32) 0 = d := by
  refine BitVec.eq_of_getLsbD_eq fun i hi => ?_
  rw [byteOf_getLsbD]
  simp [hi, show i < 32 by omega]

/-- Words that agree in bits 7 to 0 have one low part. -/
theorem and_low_of_bits {x y : Word} (h : ∀ j, j < 8 → x.getLsbD j = y.getLsbD j) : x &&& 0xFF = y &&& 0xFF := by
  have low : x.setWidth 8 = y.setWidth 8 := by
    refine BitVec.eq_of_getLsbD_eq fun j hj => ?_
    rw [BitVec.getLsbD_setWidth, BitVec.getLsbD_setWidth, h j hj]
  rw [and_low_byte, and_low_byte, low]

/-- A `Plain` entry's access of one byte: the byte of its cell under its mask, and a store of the byte under its mask
(rules R144, R191). -/
theorem entryAccess_plain_byte {s : State} (running : s.fatal = false) {e : RegEntry} {p : PlainReg}
    (hk : e.kind = .plain p) :
    (∀ d, d = s.plainGet p e.addr &&& e.mask &&& 0xFF →
      entryAccess .b1 e .read s = .next ((s.addDiag .access e.addr d (.reg e.name)).answer (.u32 d))) ∧
    ∀ x m, m = x &&& 0xFF →
      entryAccess .b1 e (.write x) s =
        .next (((s.plainSet p e.addr (m &&& e.mask)).addDiag .access e.addr m (.reg e.name)).answer .nothing) := by
  refine ⟨?_, ?_⟩
  · rintro _ rfl
    rw [entryAccess_read running]
    simp only [entryRead, entryValue, kindRead, hk, entryData_byte]
  · rintro x _ rfl
    rw [entryAccess_write running]
    simp only [entryWrite, kindWrite, hk, entryData_byte]

/-- Settles O20: inside a byte window the arbiter reads one byte and stores one byte, and the narrow operations are its
one access. -/
theorem byteWindowAccessTouchesOneByte : Obligations.ByteWindowAccessTouchesOneByte := by
  rintro s a v w _ _ running rfl rfl inside
  refine ⟨?reads, ?write8, ?write16, fun mapped hit x y bits => ?low, ?plain⟩
  case reads =>
    obtain ⟨d, byte⟩ := arbRead_byte inside
    refine ⟨(arbRead a s).1, d, ?_, ?_, ?_⟩
    · rw [exec_mrd32 running, afterRead, byte]
      rfl
    · change complete s (read8 a s).1 (.u8 (read8 a s).2) = _
      rw [complete_next running, read8_inside inside, byte, byteOf_setWidth]
      rfl
    · change complete s (read16 a s).1 (.u16 (read16 a s).2) = _
      rw [complete_next running, read16_inside inside, byte, byteOf_setWidth]
      rfl
  case write8 =>
    refine ⟨_, complete_next running _ _, ?_⟩
    change complete s (write8 a v s) .nothing = _
    rw [write8_inside inside, complete_next running]
  case write16 =>
    refine ⟨_, complete_next running _ _, ?_⟩
    change complete s (write16 a w s) .nothing = _
    rw [write16_inside inside, complete_next running]
  case low =>
    refine ⟨_, complete_next running _ _, ?_⟩
    change complete s (arbWrite a y s) .nothing = _
    rw [← arbWrite_byte inside mapped hit (and_low_of_bits bits), complete_next running]
  case plain =>
    intro e p b x d m he hk own target hd hm
    obtain ⟨read, write⟩ := entryAccess_plain_byte running hk
    have access := exec_busOp_inside inside he own target
    exact ⟨(access .read).trans (read d hd), (access (.write x)).trans (write x m hm),
      fun f hf q hq apart => plainGet_plainSet_apart s he hf hk hq apart _⟩

end Sys2Proof.Machine
end

section
/-! Rule R176 read off `recompute_eq`: which bits the aggregate takes, when the line is wanted and what a state with
one raised bank shows (rules R178 to R180). -/

namespace Sys2Proof.Machine

/-! ### The pair files -/

/-- The banks are listed in the order of their places in the pair files. -/
theorem allIntrBanks_getElem_bankIdx (b : IntrBank) : allIntrBanks[bankIdx b] = b := by
  cases b <;> rfl

theorem mem_allIntrBanks (b : IntrBank) : b ∈ allIntrBanks :=
  List.mem_of_getElem (allIntrBanks_getElem_bankIdx b)

/-- Two banks have two places. -/
theorem bankIdx_inj {a b : IntrBank} : bankIdx a = bankIdx b ↔ a = b := by
  refine ⟨fun same => ?_, congrArg bankIdx⟩
  rw [← allIntrBanks_getElem_bankIdx a, ← allIntrBanks_getElem_bankIdx b, same]

/-- A store into a bank's pending bits is read back there, and leaves every other bank's. -/
theorem State.intrOf_setIntr (s : State) (b : IntrBank) (v : Word) (a : IntrBank) :
    (s.setIntr b v).intrOf a = if a = b then v else s.intrOf a := by
  simp only [State.intrOf, State.setIntr, Fin.getElem_fin, Vector.getElem_set, ← Fin.ext_iff, bankIdx_inj, eq_comm]

/-- Storing what a bank holds changes nothing. -/
theorem State.setIntr_intrOf (s : State) (b : IntrBank) : s.setIntr b (s.intrOf b) = s := by
  simp [State.setIntr, State.intrOf]

/-! ### The aggregate and the line -/

/-- Below bit 31 the aggregate shows the routed positions of the banks with a pending enabled bit. -/
theorem aggregate_getLsbD_iff (s : State) {k : Nat} (below : k < 31) :
    s.aggregate.getLsbD k = true ↔ ∃ b, pmcBitOf s.cfg.1.pmcBit b = some k ∧ s.intrOf b &&& s.intrEnOf b ≠ 0 := by
  rw [aggregate_getLsbD, if_neg (by omega), hwBits_getLsbD, List.any_eq_true]
  simp only [mem_allIntrBanks, true_and, State.bankPending, Bool.and_eq_true, decide_eq_true_eq]

/-- Bit 31 is kept. -/
theorem aggregate_bit31 (s : State) : s.aggregate.getLsbD 31 = s.pmcIntr.getLsbD 31 := by
  rw [aggregate_getLsbD, if_pos rfl]

/-- The line is wanted where a kind that is pending has its own enable bit set. -/
theorem lineWanted_iff (c : Cfg) (agg en : Word) :
    lineWanted c agg en = true ↔ (agg.toNat % 2 ^ 31 ≠ 0 ∧ en.getLsbD c.pmcEnHwBit = true) ∨
      (agg.getLsbD 31 = true ∧ en.getLsbD c.pmcEnSwBit = true) := by
  simp only [lineWanted, bitOf, Bool.or_eq_true, Bool.and_eq_true, decide_eq_true_eq, ne_eq,
    ← BitVec.toNat_inj, and_not_swBit_toNat]
  rfl

section

variable {s : State} {sendNow : Bool}

theorem lineAfter_disabled (disabled : s.pmcIntrEn = 0) : lineAfter sendNow s = false := if_pos disabled

theorem lineAfter_passive (enabled : s.pmcIntrEn ≠ 0) : lineAfter false s = s.irqLine := if_neg enabled

theorem lineAfter_idle (idle : s.aggregate = 0) : lineAfter true s = false := by
  simp only [lineAfter, idle, Bool.not_true, Bool.false_eq_true, if_false, if_true, ite_self]

theorem lineAfter_wanted (wanted : lineWanted s.cfg.1 s.aggregate s.pmcIntrEn = true) : lineAfter true s = true := by
  have enabled : s.pmcIntrEn ≠ 0 := fun disabled => by simp [disabled, lineWanted, bitOf] at wanted
  have pending : s.aggregate ≠ 0 := fun idle => by simp [idle, lineWanted, bitOf] at wanted
  simp only [lineAfter, enabled, pending, wanted, Bool.not_true, Bool.false_eq_true, if_false, if_true]

theorem lineAfter_unwanted (enabled : s.pmcIntrEn ≠ 0) (pending : s.aggregate ≠ 0)
    (unwanted : lineWanted s.cfg.1 s.aggregate s.pmcIntrEn = false) : lineAfter true s = s.irqLine := by
  simp only [lineAfter, enabled, pending, unwanted, Bool.not_true, Bool.false_eq_true, if_false]

/-- A low line goes high exactly when it is wanted. -/
theorem lineAfter_of_low (low : s.irqLine = false) :
    lineAfter true s = lineWanted s.cfg.1 s.aggregate s.pmcIntrEn := by
  cases h : lineWanted s.cfg.1 s.aggregate s.pmcIntrEn with
  | true => exact lineAfter_wanted h
  | false => simp only [lineAfter, h, low, Bool.false_eq_true, if_false, ite_self]

/-- A recompute logs where it sends, something is enabled and pending, and the line is not wanted. -/
theorem suppressed_iff : suppressed sendNow s = true ↔ sendNow = true ∧ s.pmcIntrEn ≠ 0 ∧ s.aggregate ≠ 0 ∧
    lineWanted s.cfg.1 s.aggregate s.pmcIntrEn = false := by
  simp only [suppressed, Bool.and_eq_true, decide_eq_true_eq, Bool.not_eq_true', and_assoc]

theorem recompute_diag_quiet (quiet : ¬ suppressed sendNow s = true) : (recompute sendNow s).diag = s.diag := by
  rw [recompute_eq, if_neg quiet, List.append_nil]

theorem recompute_diag_suppressed (h : suppressed sendNow s = true) :
    (recompute sendNow s).diag = s.diag ++ [suppressedRecord s] := by
  rw [recompute_eq, if_pos h]

end

/-- Settles O33: the aggregate bit by bit, and the five cases of the procedure in its own order. -/
theorem recomputeFollowsTheProcedure : Obligations.RecomputeFollowsTheProcedure := by
  rintro sendNow s _ wanted rfl hw
  simp only [recompute_pmcIntr, ← lineWanted_iff] at hw
  simp only [recompute_pmcIntr, recompute_irqLine]
  refine ⟨fun k below => aggregate_getLsbD_iff s below, aggregate_bit31 s, fun disabled => ?disabled,
    fun enabled passive => ?passive, fun enabled now idle => ?idle, fun enabled now pending send => ?wanted,
    fun enabled now pending unwanted => ?suppressed, ?frame⟩
  case disabled =>
    refine ⟨lineAfter_disabled disabled, recompute_diag_quiet fun h => ?_⟩
    obtain ⟨-, enabled, -⟩ := suppressed_iff.1 h
    exact enabled disabled
  case passive =>
    subst passive
    exact ⟨lineAfter_passive enabled, recompute_diag_quiet Bool.false_ne_true⟩
  case idle =>
    subst now
    refine ⟨lineAfter_idle idle, recompute_diag_quiet fun h => ?_⟩
    obtain ⟨-, -, pending, -⟩ := suppressed_iff.1 h
    exact pending idle
  case wanted =>
    subst now
    have high := hw.1 send
    refine ⟨lineAfter_wanted high, recompute_diag_quiet fun h => ?_⟩
    obtain ⟨-, -, -, unwanted⟩ := suppressed_iff.1 h
    exact Bool.false_ne_true (unwanted.symm.trans high)
  case suppressed =>
    subst now
    have quiet : lineWanted s.cfg.1 s.aggregate s.pmcIntrEn = false := by rwa [hw, Bool.not_eq_true] at unwanted
    exact ⟨lineAfter_unwanted enabled pending quiet,
      recompute_diag_suppressed (suppressed_iff.2 ⟨rfl, enabled, pending, quiet⟩)⟩
  case frame => rw [recompute_eq]

/-! ### RAISE -/

theorem exec_raise {s : State} (running : s.fatal = false) (b : IntrBank) (bits : Word) :
    exec (.raise b bits) s = .next ((recompute true (s.setIntr b (s.intrOf b ||| bits))).answer .nothing) :=
  complete_next running _ _

theorem exec_swiRaise {s : State} (running : s.fatal = false) :
    exec .swiRaise s = .next ((recompute true { s with pmcIntr := s.pmcIntr ||| swBit }).answer .nothing) :=
  complete_next running _ _

/-- Settles O34: both operations complete with the recompute of their one store. -/
theorem raiseSetsPendingBits : Obligations.RaiseSetsPendingBits :=
  fun _ b bits running => ⟨exec_raise running b bits, exec_swiRaise running⟩

/-- With one bank pending and enabled and bit 31 clear, the aggregate is that bank's bit alone. -/
theorem aggregate_of_single {s : State} {b : IntrBank} {k : Nat} (routed : pmcBitOf s.cfg.1.pmcBit b = some k)
    (single : ∀ a, s.intrOf a &&& s.intrEnOf a ≠ 0 ↔ a = b) (soft : s.pmcIntr.getLsbD 31 = false) :
    s.aggregate = BitVec.ofNat 32 (2 ^ k) := by
  have below := pmcBitOf_lt s.cfg b k routed
  refine BitVec.eq_of_getLsbD_eq fun j hj => ?_
  rw [BitVec.getLsbD_ofNat, decide_eq_true hj, Bool.true_and, Nat.testBit_two_pow]
  by_cases top : j = 31
  · subst top
    rw [aggregate_bit31, soft, decide_eq_false (by omega)]
  · rw [Bool.eq_iff_iff, aggregate_getLsbD_iff s (by omega), decide_eq_true_eq]
    simp only [single, exists_eq_right, routed, Option.some.injEq]

/-- From idle banks, a raise of an enabled bank leaves it the only one with a pending enabled bit. -/
theorem raised_single {s : State} {b : IntrBank} (idle : ∀ a, s.intrOf a = 0) (enabled : s.intrEnOf b = 1)
    (a : IntrBank) : (s.setIntr b (s.intrOf b ||| 1)).intrOf a &&& s.intrEnOf a ≠ 0 ↔ a = b := by
  rw [State.intrOf_setIntr, idle, idle]
  by_cases same : a = b
  · simp [same, enabled]
  · simp [same]

/-- A single bit below bit 31, as a number. -/
theorem single_bit_toNat {k : Nat} (below : k < 31) : (BitVec.ofNat 32 (2 ^ k)).toNat % 2 ^ 31 = 2 ^ k := by
  rw [BitVec.toNat_ofNat, Nat.mod_mod_of_dvd _ (by decide), Nat.mod_eq_of_lt (Nat.pow_lt_pow_right (by decide) below)]

/-- Settles O35: the raised bank is the only one pending, so its bit is the aggregate, and the low line goes high when
the hardware-origin kind is enabled. -/
theorem raisedBankShowsItsAssignedBit : Obligations.RaisedBankShowsItsAssignedBit := by
  intro s b k running idle enabled routed soft low
  have shown : (s.setIntr b (s.intrOf b ||| 1)).aggregate = BitVec.ofNat 32 (2 ^ k) :=
    aggregate_of_single routed (raised_single idle enabled) soft
  have clear : (BitVec.ofNat 32 (2 ^ k)).getLsbD 31 = false := by
    rw [← shown, aggregate_bit31]
    exact soft
  have pending : (BitVec.ofNat 32 (2 ^ k)).toNat % 2 ^ 31 ≠ 0 := by
    rw [single_bit_toNat (pmcBitOf_lt s.cfg b k routed)]
    exact (Nat.two_pow_pos k).ne'
  refine ⟨_, exec_raise running b 1, (recompute_pmcIntr _ _).trans shown, ?_⟩
  rw [State.answer_irqLine, recompute_irqLine, lineAfter_of_low (s := s.setIntr _ _) low, shown, lineWanted_iff, clear]
  simp only [pending, ne_eq, not_false_eq_true, true_and, Bool.false_eq_true, false_and, or_false,
    State.setIntr_pmcIntrEn, State.setIntr_cfg]

end Sys2Proof.Machine
end

section
/-! Write-1-to-clear twice (rules R173, R193): a state that a recompute has settled is left by the next one, and the
second of two equal writes stores nothing that a recompute has not settled. -/

namespace Sys2Proof.Machine

/-! ### Settled states -/

/-- The aggregate is current, and the line has the level a recompute gives it. -/
def State.Settled (s : State) : Prop := s.aggregate = s.pmcIntr ∧ lineAfter true s = s.irqLine

/-- The aggregate takes from the old one its bit 31 alone. -/
theorem aggregate_soft {s : State} {x : Word} (soft : x.getLsbD 31 = s.pmcIntr.getLsbD 31) :
    State.aggregate { s with pmcIntr := x } = s.aggregate := by
  refine BitVec.eq_of_getLsbD_eq fun k _ => ?_
  rw [aggregate_getLsbD, aggregate_getLsbD]
  exact if_congr Iff.rfl soft rfl

/-- So does a recompute. -/
theorem recompute_soft {s : State} {x : Word} (soft : x.getLsbD 31 = s.pmcIntr.getLsbD 31) (sendNow : Bool) :
    recompute sendNow { s with pmcIntr := x } = recompute sendNow s := by
  simp only [recompute_eq, lineAfter, suppressed, suppressedRecord, aggregate_soft soft] <;> rfl

theorem recompute_aggregate (sendNow : Bool) (s : State) : (recompute sendNow s).aggregate = s.aggregate := by
  have current : (recompute sendNow s).pmcIntr &&& ~~~swBit = (recompute sendNow s).hwBits := by
    rw [recompute_pmcIntr, recompute_hwBits, aggregate_and_not_swBit]
  rw [aggregate_of_current current, recompute_pmcIntr]

/-- The level a recompute gives is the one it gives again. -/
theorem lineAfter_recompute (s : State) : lineAfter true (recompute true s) = lineAfter true s := by
  simp only [lineAfter, recompute_pmcIntrEn, recompute_aggregate, recompute_cfg, recompute_irqLine]
  split_ifs <;> rfl

/-- A recompute settles the state. -/
theorem recompute_settled (s : State) : (recompute true s).Settled :=
  ⟨by rw [recompute_aggregate, recompute_pmcIntr], by rw [lineAfter_recompute, recompute_irqLine]⟩

/-- Neither a record nor a reply unsettles a state. -/
theorem State.Settled.logged {s : State} (h : s.Settled) (k : DiagKind) (a v : Word) (n : DiagName) (r : Reply) :
    ((s.addDiag k a v n).answer r).Settled := h

/-- Recomputing a settled state changes nothing but `DIAG`. -/
theorem State.Settled.same_recompute {s : State} (h : s.Settled) : SameButDiag s (recompute true s) := by
  obtain ⟨current, line⟩ := h
  rw [recompute_eq, current, line]
  exact ⟨_, rfl⟩

/-! ### The second of two writes -/

/-- Claiming pending bits of a settled state changes nothing but `DIAG` where bit 31 is not among those it clears:
the other bits come back with the recompute (rule R173). -/
theorem State.Settled.same_writePmcIntr {s : State} (h : s.Settled) {v : Word}
    (kept : (s.pmcIntr &&& ~~~v).getLsbD 31 = s.pmcIntr.getLsbD 31) : SameButDiag s (writePmcIntr v s) := by
  have stored (d : List DiagRecord) :
      SameButDiag s (recompute true { s with diag := d, pmcIntr := s.pmcIntr &&& ~~~v }) := by
    obtain ⟨l, same⟩ := State.Settled.same_recompute (s := { s with diag := d }) h
    rw [recompute_soft (s := { s with diag := d }) kept, same]
    exact ⟨l, rfl⟩
  unfold writePmcIntr
  dsimp only
  split
  · exact stored _
  · exact stored s.diag

/-- Claiming bits of a bank that are clear changes nothing but `DIAG` in a settled state (rule R193). -/
theorem State.Settled.same_writeBankIntr {s : State} (h : s.Settled) {b : IntrBank} {v : Word}
    (kept : s.intrOf b &&& ~~~v = s.intrOf b) : SameButDiag s (writeBankIntr b v s) := by
  rw [writeBankIntr, kept, State.setIntr_intrOf]
  exact h.same_recompute

/-- After a write of the aggregate bit 31 is not among the bits that the same write clears. -/
theorem writePmcIntr_kept (v : Word) (s : State) :
    ((writePmcIntr v s).pmcIntr &&& ~~~v).getLsbD 31 = (writePmcIntr v s).pmcIntr.getLsbD 31 := by
  have bit31 : (writePmcIntr v s).pmcIntr.getLsbD 31 = (s.pmcIntr &&& ~~~v).getLsbD 31 := by
    rw [writePmcIntr, recompute_pmcIntr, aggregate_bit31]
    dsimp only
    split <;> rfl
  rw [BitVec.getLsbD_and, bit31, BitVec.getLsbD_and, Bool.and_assoc, Bool.and_self]

/-- After a write of a bank's pending bits none of them is among those that the same write clears. -/
theorem writeBankIntr_kept (b : IntrBank) (v : Word) (s : State) :
    (writeBankIntr b v s).intrOf b &&& ~~~v = (writeBankIntr b v s).intrOf b := by
  have stored : (writeBankIntr b v s).intrOf b = s.intrOf b &&& ~~~v := by
    rw [writeBankIntr, State.intrOf, recompute_intr]
    exact (State.intrOf_setIntr s b _ b).trans (if_pos rfl)
  rw [stored, BitVec.and_assoc, BitVec.and_self]

/-- A state that agrees with another but for `DIAG` does so after one more record and the same reply. -/
theorem SameButDiag.logged_diag {s t : State} (h : SameButDiag s t) {r : Reply} (reply : s.reply = r) (k : DiagKind)
    (a v : Word) (n : DiagName) : { (t.addDiag k a v n).answer r with diag := s.diag } = s := by
  obtain ⟨d, rfl⟩ := h
  subst reply
  rfl

/-- A `Computed` register whose rule, applied again to the logged result of a write, changes nothing but `DIAG`: the
second of two equal writes of its row does nothing else either. -/
theorem computed_row_write_twice {c : ComputedReg} (required : RegName.computed c ∈ requiredRegs)
    {row : Access → Instr} (isRow : IsRowOf row (computedEntry · c)) {s : State} (running : s.fatal = false) (v : Word)
    (again : ∀ a d t, t = ((computedWrite c a d s).addDiag .access a d (.reg (.computed c))).answer .nothing →
      SameButDiag t (computedWrite c a d t)) :
    ∃ t u, exec (row (.write v)) s = .next t ∧ exec (row (.write v)) t = .next u ∧ { u with diag := t.diag } = t := by
  obtain ⟨-, name, -, write⟩ := computed_row required isRow running rfl
  generalize he : computedEntry s.cfg.1 c = e at name write
  have first := write v _ rfl
  rw [name] at first
  generalize ht : State.answer _ _ = t at first
  have moves : Moves s t :=
    ht ▸ ((moves_computedWrite c e.addr (regData s.cfg.1 e v) s).step (.log _ _ _ _ _)).step (.answer _ _)
  have own : e = computedEntry t.cfg.1 c := by rw [moves.cfg, he]
  obtain ⟨-, -, -, write'⟩ := computed_row required isRow (moves.fatal.trans running) own
  have second := write' v _ rfl
  rw [moves.cfg] at second
  have reply : t.reply = .nothing := ht ▸ rfl
  exact ⟨t, _, first, second, (again _ _ t ht.symm).logged_diag reply _ _ _ _⟩

/-- Settles O36: the first write leaves a settled state in which every bit the second one claims is clear, but for
aggregate bits that the recompute brings back. -/
theorem secondWriteOneToClearIsANoOp : Obligations.SecondWriteOneToClearIsANoOp := by
  intro s v running
  refine ⟨?aggregate, fun p hp => ?bank⟩
  case aggregate =>
    refine computed_row_write_twice (c := .pmcIntr) (by decide) (fun _ _ => rfl) running v ?_
    rintro a d _ rfl
    have settled : (writePmcIntr d s).Settled := recompute_settled _
    refine (settled.logged _ _ _ _ _).same_writePmcIntr ?_
    rw [State.answer_pmcIntr, State.addDiag_pmcIntr, writePmcIntr_kept]
  case bank =>
    obtain ⟨required, isRow⟩ := intrRows_spec p hp
    refine computed_row_write_twice required isRow running v ?_
    rintro a d _ rfl
    have settled : (writeBankIntr p.1 d s).Settled := recompute_settled _
    exact (settled.logged _ _ _ _ _).same_writeBankIntr (writeBankIntr_kept p.1 d s)

end Sys2Proof.Machine
end

section
/-! `Plain` entries (rule R191), reached by a REG row or through a bank's RANGE row. -/

namespace Sys2Proof.Machine

/-- An access of a width to a `Plain` entry: its cell under its mask, and a store of the datum under its mask. -/
theorem entryAccess_plain {s : State} (running : s.fatal = false) (n : Width) {e : RegEntry} {p : PlainReg}
    (hk : e.kind = .plain p) :
    (∀ d, d = entryData n e (s.plainGet p e.addr &&& e.mask) →
      entryAccess n e .read s = .next ((s.addDiag .access e.addr d (.reg e.name)).answer (.u32 d))) ∧
    ∀ v d, d = entryData n e v →
      entryAccess n e (.write v) s =
        .next (((s.plainSet p e.addr (d &&& e.mask)).addDiag .access e.addr d (.reg e.name)).answer .nothing) := by
  refine ⟨?read, ?write⟩
  case read =>
    rintro _ rfl
    simp only [entryAccess_read running, entryRead, entryValue, kindRead, hk]
  case write =>
    rintro v _ rfl
    simp only [entryAccess_write running, entryWrite, kindWrite, hk]

/-- Settles O26: both kinds of row are the access to the entry, which stores into the one cell. -/
theorem plainRegisterStoresUnderItsMask : Obligations.PlainRegisterStoresUnderItsMask := by
  refine fun s running => ⟨fun p hp => ?named, fun r hr a k e he hk own => ?added⟩
  case named =>
    obtain ⟨required, isRow⟩ := plainRows_spec p hp
    obtain ⟨mem, kind, name⟩ := plainEntry_spec s.cfg p.1 required
    refine ⟨_, mem, name, ?_⟩
    simp only [isRow _ s, regAccess_eq]
    exact entryAccess_plain running _ kind
  case added =>
    obtain ⟨read, write⟩ := entryAccess_plain running (rangeWidth a s) hk
    refine ⟨fun d hd => (exec_bankRow_hit hr he own .read).trans (read d hd), fun v d hd => ?_⟩
    exact ⟨_, (exec_bankRow_hit hr he own (.write v)).trans (write v d hd), rfl,
      fun x => extraGet_extraSet s.extra e.addr (d &&& e.mask) x⟩

end Sys2Proof.Machine
end

section
/-! The shim (rules R211 to R221): where a port's offset splits into the select and the lane, what an access that the
shim proxies does outside and inside its own window, and what the lanes of its two accumulators do. -/

namespace Sys2Proof.Machine

/-! ### A port's offset (rule R211) -/

/-- The select is a multiple of 4: `MODE_MAX - 1` has bit 0 clear in a valid configuration. -/
theorem rmaSel_mod_four (c : ValidCfg) (m : Byte) : rmaSel c.1 m % 4 = 0 := by
  have valid := c.2
  simp only [Cfg.valid, Cfg.scalarsOk, Bool.and_eq_true, beq_iff_eq] at valid
  have even : (c.1.modeMax - 1) &&& 1 = 0 := by tauto
  have low : (m &&& (c.1.modeMax - 1)) &&& 1 = 0 := by
    rw [BitVec.and_assoc, even]
    exact BitVec.and_zero
  have masked : (m &&& (c.1.modeMax - 1)).toNat % 2 = 0 := by
    rw [← Nat.and_one_is_mod]
    exact congrArg BitVec.toNat low
  unfold rmaSel
  omega

/-- The offset of one of the four ports has the select as its dword part and the lane as its byte part. -/
theorem rmaOff_parts {c : ValidCfg} {port : Half} (isPort : isRmaPort c.1 port = true) (m : Byte) :
    rmaOff c.1 m port / 4 * 4 = rmaSel c.1 m ∧ rmaOff c.1 m port % 4 = port.toNat - c.1.rmaPortBase.toNat := by
  have select := rmaSel_mod_four c m
  simp only [isRmaPort, Bool.and_eq_true, decide_eq_true_eq] at isPort
  unfold rmaOff
  omega

section

variable {s : State} (running : s.fatal = false)

include running

/-- A port read completes with the port's byte. -/
theorem exec_iord8 (port : Half) :
    exec (.iord8 port) s = .next ((portIn port s).1.answer (.u8 (portIn port s).2)) :=
  complete_next running _ _

/-- A port write completes. -/
theorem exec_iowr8 (port : Half) (v : Byte) : exec (.iowr8 port v) s = .next ((portOut port v s).answer .nothing) :=
  complete_next running _ _

/-- A 32-bit write is the arbiter's (rule R141). -/
theorem exec_mwr32 (a v : Word) : exec (.mwr32 a v) s = .next ((arbWrite a v s).answer .nothing) :=
  complete_next running _ _

/-- A read at an offset of the shim completes with its byte. -/
theorem rmaReadAt_next (o : Nat) : rmaReadAt o s = .next ((rmaRead o s).1.answer (.u8 (rmaRead o s).2)) :=
  complete_next running _ _

end

section

variable {s : State} {port : Half} (isPort : isRmaPort s.cfg.1 port = true)

include isPort

/-- A read of one of the four ports is the shim's read at the port's offset. -/
theorem exec_iord8_shim : exec (.iord8 port) s = rmaReadAt (rmaOff s.cfg.1 s.rmaMode port) s := by
  have read : portIn port s = rmaRead (rmaOff s.cfg.1 s.rmaMode port) s := if_pos isPort
  rw [rmaReadAt, ← read]
  rfl

/-- A write of one of the four ports is of an address lane where the select is 0, and of a data lane otherwise
(rules R216, R217). -/
theorem portOut_shim (v : Byte) : portOut port v s =
    if rmaSel s.cfg.1 s.rmaMode = 0 then rmaWriteAddr (port.toNat - s.cfg.1.rmaPortBase.toNat) v s
    else rmaWriteData (port.toNat - s.cfg.1.rmaPortBase.toNat) v s := by
  obtain ⟨select, lane⟩ := rmaOff_parts isPort s.rmaMode
  have low : rmaOff s.cfg.1 s.rmaMode port < 4 ↔ rmaSel s.cfg.1 s.rmaMode = 0 := by omega
  rw [portOut, if_pos isPort, rmaWrite, lane]
  exact ite_congr (propext low) (fun _ => rfl) fun _ => rfl

end

/-! ### The accesses that the shim proxies (rules R215, R218, R221) -/

section

variable {s : State} {t : Word}

/-- Outside the shim's own window its read is the arbiter's. -/
theorem passRead_outward (outward : targetOf s.cfg.1 (alignAddr s.cfg.1 t) ≠ .rmaMmio) :
    passRead t s = arbRead t s := by
  unfold passRead arbRead
  cases target : targetOf s.cfg.1 (alignAddr s.cfg.1 t) with
  | rmaMmio => exact absurd target outward
  | unmapped => rfl
  | region r => rfl

/-- In it the read is an unmapped one, recorded at the address as it stands. -/
theorem passRead_inward (inward : targetOf s.cfg.1 (alignAddr s.cfg.1 t) = .rmaMmio) :
    passRead t s = (s.addDiag .unmapped t 0 .none, 0) := by
  simp only [passRead, inward, softRead]

/-- Outside the shim's own window its write is the arbiter's. -/
theorem passWrite_outward (outward : targetOf s.cfg.1 (alignAddr s.cfg.1 t) ≠ .rmaMmio) (v : Word) :
    passWrite t v s = arbWrite t v s := by
  unfold passWrite arbWrite
  cases target : targetOf s.cfg.1 (alignAddr s.cfg.1 t) with
  | rmaMmio => exact absurd target outward
  | unmapped => rfl
  | region r => rfl

/-- In it the write is an unmapped one, recorded at the address as it stands. -/
theorem passWrite_inward (inward : targetOf s.cfg.1 (alignAddr s.cfg.1 t) = .rmaMmio) (v : Word) :
    passWrite t v s = s.addDiag .unmapped t v .none := by
  simp only [passWrite, inward, softWrite]

end

/-- A byte zero-extended is 0 in the lanes above 0. -/
theorem byteOf_setWidth_above (d : Byte) {k : Nat} (above : k ≠ 0) : byteOf (d.setWidth 32) k = 0 := by
  refine BitVec.eq_of_getLsbD_eq fun i hi => ?_
  rw [byteOf_getLsbD, BitVec.getLsbD_setWidth, BitVec.getLsbD_of_ge d _ (by omega)]
  simp

/-- A word is its four bytes (rule R61). -/
theorem eq_of_byteOf {x y : Word} (h : ∀ k, k < 4 → byteOf x k = byteOf y k) : x = y := by
  rw [← wordOf_byteOf x, ← wordOf_byteOf y, h 0 (by decide), h 1 (by decide), h 2 (by decide), h 3 (by decide)]

/-! ### The fourth data lane (rules R217, R218, R220) -/

/-- The shim's address after a commit: advanced where the mode requests it. -/
def State.nextAddr (s : State) : Word :=
  if s.rmaMode &&& s.cfg.1.modeAutoinc ≠ 0 then s.rmaAddr + 4 else s.rmaAddr

/-- A commit is the one proxied write, and then the advance: the write itself leaves the shim's registers. -/
theorem rmaCommit_eq (s : State) : rmaCommit s = (passWrite s.rmaAddr s.rmaData s).withAddr s.nextAddr := by
  have shim := passWrite_shim s.rmaAddr s.rmaData s
  simp only [State.shim, Prod.mk.injEq] at shim
  obtain ⟨addr, -, mode⟩ := shim
  have next : s.nextAddr = (passWrite s.rmaAddr s.rmaData s).nextAddr := by
    rw [State.nextAddr, State.nextAddr, addr, mode, (moves_passWrite s.rmaAddr s.rmaData s).cfg]
  rw [next, rmaCommit, State.nextAddr]
  split <;> rfl

section

variable {s : State} (running : s.fatal = false) {w : Word} {v : Byte} (assembled : setLane s.rmaData 3 v = w)

include running assembled

/-- Data lane 3 outside the shim's own window: the one 32-bit write, and then the advance. -/
theorem dataLane_commits (outward : targetOf s.cfg.1 (alignAddr s.cfg.1 s.rmaAddr) ≠ .rmaMmio) :
    ∃ t, exec (.mwr32 s.rmaAddr w) { s with rmaData := w } = .next t ∧
      complete s (rmaWriteData 3 v s) .nothing = .next { t with rmaAddr := s.nextAddr } := by
  refine ⟨_, exec_mwr32 (s := { s with rmaData := w }) running s.rmaAddr w, ?_⟩
  rw [complete_next running, rmaWriteData, if_pos rfl, assembled, rmaCommit_eq,
    passWrite_outward (s := { s with rmaData := w }) outward]
  rfl

/-- Data lane 3 inside it: the record, and then the advance all the same. -/
theorem dataLane_commits_inward (inward : targetOf s.cfg.1 (alignAddr s.cfg.1 s.rmaAddr) = .rmaMmio) :
    complete s (rmaWriteData 3 v s) .nothing =
      .next (({ s with rmaData := w, rmaAddr := s.nextAddr }.addDiag .unmapped s.rmaAddr w .none).answer
        .nothing) := by
  rw [complete_next running, rmaWriteData, if_pos rfl, assembled, rmaCommit_eq,
    passWrite_inward (s := { s with rmaData := w }) inward]
  rfl

end

/-- A data lane below 3 changes its accumulator alone. -/
theorem rmaWriteData_partial {k : Nat} (low : k ≠ 3) (v : Byte) (s : State) :
    rmaWriteData k v s = { s with rmaData := setLane s.rmaData k v } :=
  if_neg low

/-! ### The ports -/

/-- Settles O39: the port's offset has the select as its dword part, so that the shim proxies the read at that
address. -/
theorem portReadPassesThrough : Obligations.PortReadPassesThrough := by
  rintro s port _ _ _ running isPort pass rfl rfl rfl
  obtain ⟨select, lane⟩ := rmaOff_parts isPort s.rmaMode
  have target : passTarget s (rmaOff s.cfg.1 s.rmaMode port) =
      (s.rmaAddr + BitVec.ofNat 32 (2 * (s.rmaMode &&& (s.cfg.1.modeMax - 1)).toNat)) &&& ~~~3 := by
    rw [passTarget, select, rmaSel, Nat.mul_comm]
  have read := exec_iord8_shim isPort
  rw [rmaReadAt_next running, rmaRead_pass pass, target, lane] at read
  refine ⟨fun outward => ?_, fun inward => ?_⟩
  · rw [passRead_outward outward] at read
    refine ⟨_, _, exec_mrd32 running _, rfl, read, fun window above => ?_⟩
    obtain ⟨d, byte⟩ := arbRead_byte window
    rw [byte, byteOf_setWidth_above d above]
  · have zero : byteOf 0 (port.toNat - s.cfg.1.rmaPortBase.toNat) = 0 := by simp [byteOf]
    rw [read, passRead_inward inward, zero]
    rfl

/-- Settles O40: the select says which accumulator a port writes, and no lane but data lane 3 commits. -/
theorem partialBurstWritesNothing : Obligations.PartialBurstWritesNothing := by
  intro s port v sel lane running
  refine ⟨fun foreign => ?_, fun isPort hsel hlane => ?_⟩
  · rw [exec_iowr8 running, portOut, foreign]
    rfl
  · have select : rmaSel s.cfg.1 s.rmaMode = sel := by rw [hsel, rmaSel, Nat.mul_comm]
    have write := exec_iowr8 running port v
    rw [portOut_shim isPort, select, ← hlane] at write
    refine ⟨fun address => ?_, fun data low => ?_⟩
    · rw [if_pos address] at write
      exact ⟨_, fun k => byteOf_setLane s.rmaAddr lane v, write⟩
    · rw [if_neg data, rmaWriteData_partial low] at write
      exact ⟨_, fun k => byteOf_setLane s.rmaData lane v, write⟩

/-- Settles O41: the last port is data lane 3, which commits. -/
theorem fourthDataByteCommitsOnce : Obligations.FourthDataByteCommitsOnce := by
  rintro s port v w _ running isPort data last bytes rfl
  have assembled : setLane s.rmaData 3 v = w :=
    eq_of_byteOf fun k hk => (byteOf_setLane s.rmaData 3 v hk).trans (bytes k hk).symm
  have select : rmaSel s.cfg.1 s.rmaMode ≠ 0 := by
    unfold rmaSel
    omega
  have lane : port.toNat - s.cfg.1.rmaPortBase.toNat = 3 := by omega
  have write : exec (.iowr8 port v) s = complete s (rmaWriteData 3 v s) .nothing := by
    rw [exec_iowr8 running, portOut_shim isPort, if_neg select, lane, complete_next running]
  rw [write]
  exact ⟨dataLane_commits running assembled, dataLane_commits_inward running assembled⟩

/-- Settles O38: with no transaction the shim answers from its signature, and a foreign port with a draw. -/
theorem modeSelectsTheSignature : Obligations.ModeSelectsTheSignature := by
  intro s port running
  refine ⟨fun v => complete_next running _ _, fun isPort direct off hoff => ?_, fun foreign => ?_⟩
  · have offset : rmaOff s.cfg.1 s.rmaMode port = off := by rw [hoff, rmaOff, rmaSel, Nat.mul_comm]
    rw [exec_iord8_shim isPort, rmaReadAt_next running, rmaRead_direct direct, offset]
    rfl
  · rw [exec_iord8 running, portIn, foreign]
    rfl

/-! ### The RMA rows -/

/-- A row that reads with `mode[0]` set is the one read that the shim proxies, and a lane of it (rules R215, R221). -/
theorem exec_rmaRdPass {s : State} (running : s.fatal = false) (pass : s.rmaMode.getLsbD 0 = true) (off : BitVec 5) :
    exec (.rmaRdPass off) s = .next ((passRead (passTarget s off.toNat) s).1.answer
      (.u8 (byteOf (passRead (passTarget s off.toNat) s).2 (off.toNat % 4)))) :=
  (rmaReadAt_next running off.toNat).trans (by rw [rmaRead_pass pass])

/-- Settles O43: each row is the shim's function at its offset. -/
theorem rmaRowsDoWhatTheirOffsetSelects : Obligations.RmaRowsDoWhatTheirOffsetSelects := by
  intro s lane off v running
  refine ⟨fun direct => ⟨?signature, fun above => ?zero⟩,
    fun pass => ⟨_, _, _, exec_rmaRdPass running pass off, rfl, rfl, fun outward => ?outward, fun inward => ?inward⟩,
    ⟨setLane s.rmaAddr lane.toNat v, fun k => byteOf_setLane _ _ v, complete_next running _ _⟩,
    setLane s.rmaData (off.toNat % 4) v, s.nextAddr, fun k => byteOf_setLane _ _ v, fun low => ?lowLane, rfl,
    fun last => ?commit, fun last inward => ?commitInward⟩
  case signature =>
    refine (rmaReadAt_next running lane.toNat).trans ?_
    rw [rmaRead_direct direct, if_pos lane.isLt]
    rfl
  case zero =>
    refine (rmaReadAt_next running off.toNat).trans ?_
    rw [rmaRead_direct direct, if_neg (by omega)]
    rfl
  case outward =>
    rw [exec_mrd32 running, afterRead, ← passRead_outward outward]
    rfl
  case inward =>
    have read : passRead (passTarget s off.toNat) s = _ := passRead_inward inward
    rw [read]
    exact ⟨rfl, rfl⟩
  case lowLane =>
    refine (complete_next running _ _).trans ?_
    rw [rmaWriteData_partial low]
    rfl
  case commit =>
    change _ → ∃ t, _ ∧ complete s (rmaWriteData (off.toNat % 4) v s) .nothing = _
    rw [last]
    exact dataLane_commits running rfl
  case commitInward =>
    change ∃ t, complete s (rmaWriteData (off.toNat % 4) v s) .nothing = _ ∧ _
    rw [last]
    exact ⟨_, dataLane_commits_inward running rfl inward, rfl⟩

end Sys2Proof.Machine
end

section
/-! The palette bytes (rule R245): a `Plain` entry whose cell is one byte, so the datum of any access to it is a byte. -/

namespace Sys2Proof.Machine

/-- A store into a palette cell changes that cell and no other (rules R24, R245). -/
theorem State.plainSet_pal_getElem (s : State) (k j : BitVec 2) (a x : Word) :
    (s.plainSet (.pal k) a x).pal[j.toNat] = if j = k then x.setWidth 8 else s.pal[j.toNat] := by
  simp only [State.plainSet, Vector.getElem_set, BitVec.toNat_inj, eq_comm]

/-- A palette entry shows its cell zero-extended under its mask: its datum cuts nothing off a byte. -/
theorem entryData_palCell (n : Width) {e : RegEntry} {k : BitVec 2} (hk : e.kind = .plain (.pal k)) (s : State) :
    entryData n e (s.plainGet (.pal k) e.addr &&& e.mask) = s.pal[k.toNat].setWidth 32 &&& e.mask := by
  have byte : (s.plainGet (.pal k) e.addr).setWidth 8 = s.pal[k.toNat] :=
    BitVec.setWidth_setWidth_of_le _ (by decide)
  rw [entryData_and, entryData_pal n hk, and_low_byte, byte]

/-- What a palette entry stores of a datum under its mask is the low byte under the mask's low byte. -/
theorem low_byte_and_setWidth (v m : Word) : ((v &&& 0xFF) &&& m).setWidth 8 = v.setWidth 8 &&& m.setWidth 8 := by
  rw [BitVec.setWidth_and, and_low_byte, BitVec.setWidth_setWidth_of_le _ (by decide), BitVec.setWidth_eq]

/-- Settles O27: the rows are accesses to `Plain` entries, whose datum is a byte and whose store is into one cell. -/
theorem paletteByteIsByteStorage : Obligations.PaletteByteIsByteStorage := by
  intro s running p hp
  obtain ⟨required, isRow⟩ := palRows_spec p hp
  obtain ⟨mem, kind, name⟩ := plainEntry_spec s.cfg (.pal p.1) required
  obtain ⟨read, write⟩ := entryAccess_plain running (regWidth s.cfg.1 (plainEntry s.cfg.1 (.pal p.1))) kind
  refine ⟨_, mem, name, ?_⟩
  simp only [isRow _ s, regAccess_eq]
  constructor
  · exact ⟨_, _, read _ (entryData_palCell _ kind s).symm, rfl, rfl⟩
  · refine fun v => ⟨_, write v _ (entryData_pal _ kind v).symm, fun k => ?_, rfl⟩
    rw [← low_byte_and_setWidth]
    exact s.plainSet_pal_getElem p.1 k (plainEntry s.cfg.1 (.pal p.1)).addr _

end Sys2Proof.Machine
end

section
/-! The timers' expiries (rules R233, R234, R243, R244): what `PtimerTick` leaves in each of its three cases, with the
counter as a number modulo `2^64`. -/

namespace Sys2Proof.Machine

/-- A single bit as a number; from 32 up both sides are 0. -/
theorem one_shiftLeft_eq_ofNat (n : Nat) : (1 : Word) <<< n = BitVec.ofNat 32 (2 ^ n) :=
  BitVec.eq_of_toNat_eq (by rw [BitVec.toNat_ofNat, ← BitVec.toNat_twoPow, BitVec.twoPow_eq]; rfl)

/-- A ratio with a zero in it stops the counter (rule R243). -/
theorem ptimerTick_of_zero {s : State} (elapsed : Nat) (zero : s.ptimerNum = 0 ∨ s.ptimerDen = 0) :
    ptimerTick elapsed s = s :=
  if_pos zero

/-- Any other ratio advances the counter to `T`, and the alarm bit is raised where the advanced counter has reached the
alarm (rules R243, R244). -/
theorem ptimerTick_of_ratio {s : State} {elapsed T : Nat} (num : s.ptimerNum ≠ 0) (den : s.ptimerDen ≠ 0)
    (hT : T = (s.ptimerTime.toNat + elapsed * s.ptimerNum.toNat / s.ptimerDen.toNat) % 2 ^ 64) :
    ptimerTick elapsed s =
      if s.ptimerAlarm.toNat ≤ T then
        raiseBits .ptimer (BitVec.ofNat 32 (2 ^ s.cfg.1.ptimerAlarmBit)) { s with ptimerTime := BitVec.ofNat 64 T }
      else { s with ptimerTime := BitVec.ofNat 64 T } := by
  have counter : s.ptimerTime + BitVec.ofNat 64 (elapsed * s.ptimerNum.toNat / s.ptimerDen.toNat) =
      BitVec.ofNat 64 T :=
    BitVec.eq_of_toNat_eq (by simp [hT])
  have reached : s.ptimerAlarm ≤ BitVec.ofNat 64 T ↔ s.ptimerAlarm.toNat ≤ T := by
    rw [BitVec.le_def, BitVec.toNat_ofNat, hT, Nat.mod_mod]
  unfold ptimerTick
  rw [if_neg (not_or.2 ⟨num, den⟩)]
  simp only [counter, reached, one_shiftLeft_eq_ofNat]

section

variable {s : State} (running : s.fatal = false)

include running

/-- The pixel-clock expiry completes and changes nothing but the reply (rule R233). -/
theorem exec_tickPclk : exec .tickPclk s = .next (s.answer .nothing) := by
  have completes : exec .tickPclk s = .next ((pclkExpiry s).answer .nothing) := complete_next running _ _
  rw [completes, pclkExpiry_eq]

/-- The memory-clock expiry completes with a tick of PTIMER where its timer is armed (rule R234). -/
theorem exec_tickMclk (elapsed : Nat) :
    exec (.tickMclk elapsed) s = .next ((if s.mclk.armed then ptimerTick elapsed s else s).answer .nothing) := by
  have completes : exec (.tickMclk elapsed) s = .next ((mclkExpiry elapsed s).answer .nothing) :=
    complete_next running _ _
  rw [completes, mclkExpiry_eq]

end

/-- Settles O44: an expiry is a tick of PTIMER where the timer is armed, and a tick does one of three things. -/
theorem timerExpiryAdvancesTheCounter : Obligations.TimerExpiryAdvancesTheCounter := by
  intro s elapsed T u running
  refine ⟨exec_tickPclk running, fun idle => ?idle, fun armed num den hT hu =>
    ⟨fun below => ?below, fun reached => ?reached⟩⟩
  case idle =>
    have unmoved : (if s.mclk.armed then ptimerTick elapsed s else s) = s := by
      rcases idle with unarmed | zero
      · rw [unarmed, if_neg Bool.false_ne_true]
      · rw [ptimerTick_of_zero elapsed zero, ite_self]
    rw [exec_tickMclk running, unmoved]
    rfl
  case below =>
    rw [exec_tickMclk running, if_pos armed, ptimerTick_of_ratio num den hT, if_neg (Nat.not_le.2 below), hu]
    rfl
  case reached =>
    rw [exec_tickMclk running, if_pos armed, ptimerTick_of_ratio num den hT, if_pos reached, hu]
    rfl

end Sys2Proof.Machine
end

section
/-! The classes that the spec opens (rules R264, R266 to R272) and the pixel pipeline (rules R284, R285, R287): which
branch of a handler a method id selects, when a pixel is written, and what a fill of suppressed pixels does. -/

namespace Sys2Proof.Machine

/-! ### A method of one class -/

/-- A method of a class completes with its handler and the notifier, on the narrowed tuple (rule R260). -/
theorem classStep_next {s : State} (running : s.fatal = false) (h : Handler) {sub u : Submission}
    (hu : u = narrowSub s.cfg.1 sub) :
    classStep h sub s = .next ((notify u (runHandler h (grobjFetch sub.ctx s) (callOf u) s)).answer .nothing) := by
  rw [hu]
  exact complete_next running _ _

/-- A class with no handler completes with `unknownClassMethod` on the narrowed tuple (rule R264). -/
theorem exec_mUnknownClass {s : State} (running : s.fatal = false) (cls : Word) (sub : Submission) :
    exec (.mUnknownClass cls sub) s =
      .next ((unknownClassMethod (narrowClass s.cfg.1 cls) (narrowSub s.cfg.1 sub) s).answer .nothing) :=
  complete_next running _ _

/-- A class with no entry in `CLASS_TAB` has no handler (rule R9). -/
theorem handlerOf_eq_none {tab : List (Word × Handler)} {cls : Word} (free : ∀ p ∈ tab, p.1 ≠ cls) :
    handlerOf tab cls = none := by
  induction tab with
  | nil => rfl
  | cons p rest ih =>
    obtain ⟨head, tail⟩ := List.forall_mem_cons.1 free
    rw [handlerOf, if_neg head, ih tail]

/-- Settles O47: the policy selects the stop or the notifier. -/
theorem unknownClassStopsOrIsLogged : Obligations.UnknownClassStopsOrIsLogged := by
  intro s cls sub u c l running hu hc hl
  have class_eq : narrowClass s.cfg.1 cls = c := by
    rw [hc]
    exact lowBits_eq (widths_le s.cfg).2.2.2 cls
  have step := exec_mUnknownClass running cls sub
  rw [class_eq, ← hu] at step
  have param : u.param = sub.param := by rw [hu, narrowSub_param]
  refine ⟨fun stops => ?stops, fun logs => ?logs, fun specific free => ?dispatch⟩
  case stops =>
    rw [step, unknownClassMethod, stops, hl, param]
    rfl
  case logs =>
    rw [step, unknownClassMethod, logs, hl, param]
    simp only [notify_eq]
    rfl
  case dispatch =>
    refine exec_method_unknown (by rw [← hu]; exact specific) ?_
    rw [class_eq]
    exact handlerOf_eq_none free

/-! ### The halves of a parameter (rule R105) -/

theorem paramX_eq (p : Word) : paramX p = p.extractLsb' 0 16 :=
  BitVec.setWidth_eq_extractLsb' (by decide)

theorem paramY_eq (p : Word) : paramY p = p.extractLsb' 16 16 :=
  BitVec.setWidth_ushiftRight_eq_extractLsb

theorem setBitmap0_eq (t : DWord) (v : Word) : setBitmap0 t v = t.extractLsb' 32 32 ++ v := by
  have high : setBitmap0.hiHalfOf t = t.extractLsb' 32 32 := BitVec.setWidth_ushiftRight_eq_extractLsb
  rw [setBitmap0, high]

theorem setBitmap1_eq (t : DWord) (v : Word) : setBitmap1 t v = v ++ t.extractLsb' 0 32 := by
  rw [setBitmap1, BitVec.setWidth_eq_extractLsb' (by decide)]

/-! ### The classes that store their parameter -/

/-- Settles O48: each handler tests its ids in turn and else logs. -/
theorem parameterClassesStoreTheirParameter : Obligations.ParameterClassesStoreTheirParameter := by
  intro s sub u mm unlisted running hu hmm hlog
  have param : u.param = sub.param := by rw [hu, narrowSub_param]
  have log (h : Handler) : unlisted h = unknownMethod h (callOf u) s := by rw [hlog, ← param]; rfl
  refine ⟨?beta, ?rop, ?plane, ?clip⟩
  case beta =>
    rw [log, hmm, ← param]
    exact classStep_next running .beta hu
  case rop =>
    rw [log, hmm, ← param, ← BitVec.setWidth_eq_extractLsb' (by decide : 8 ≤ 32)]
    exact classStep_next running .rop hu
  case plane =>
    rw [log, hmm, ← param]
    exact classStep_next running .plane hu
  case clip =>
    rw [log, hmm, ← param, ← paramX_eq, ← paramY_eq]
    exact classStep_next running .clip hu

/-- Settles O49: as O48, with the colour of the grobj that this method fetches. -/
theorem colourClassesExpandWithTheFetchedFormat : Obligations.ColourClassesExpandWithTheFetchedFormat := by
  intro s sub u mm col unlisted running hu hmm hcol hlog
  have param : u.param = sub.param := by rw [hu, narrowSub_param]
  have log (h : Handler) : unlisted h = unknownMethod h (callOf u) s := by rw [hlog, ← param]; rfl
  have colour : col = expandParam s (grobjFetch sub.ctx s) (callOf u) := by rw [hcol, ← param]; rfl
  refine ⟨?chroma, ?pattern⟩
  case chroma =>
    rw [log, hmm, colour]
    exact classStep_next running .chroma hu
  case pattern =>
    rw [log, hmm, colour, ← param, ← BitVec.setWidth_eq_extractLsb' (by decide : 2 ≤ 32), ← setBitmap0_eq,
      ← setBitmap1_eq]
    exact classStep_next running .pattern hu

/-! ### The pixel tests (rules R284, R285, R287) -/

theorem clipPass_iff (p : Pgraph) (x y : Nat) :
    clipPass p x y = true ↔ (p.clipX.toNat ≤ x ∧ x ≤ p.clipX.toNat + p.clipW.toNat) ∧
      (p.clipY.toNat ≤ y ∧ y ≤ p.clipY.toNat + p.clipH.toNat) := by
  simp only [clipPass, Bool.and_eq_true, decide_eq_true_eq, and_assoc]

theorem chromaPass_iff (c : Cfg) (p : Pgraph) (g : Grobj) (src : Color) :
    chromaPass c p g src = true ↔
      ¬ (chromaEn c g = true ∧ p.chroma.a ≠ 0 ∧ Config.down g src = Config.down g p.chroma) := by
  unfold chromaPass
  split
  · rename_i opaqueKey
    split
    · rename_i enabled
      rw [decide_eq_true_eq]
      exact ⟨fun differs ⟨_, _, same⟩ => differs same, fun h same => h ⟨enabled, opaqueKey, same⟩⟩
    · rename_i disabled
      exact iff_of_true rfl fun ⟨enabled, _⟩ => disabled enabled
  · rename_i clearKey
    exact iff_of_true rfl fun ⟨_, opaqueKey, _⟩ => clearKey opaqueKey

section

variable {s : State} {g : Grobj} {x y : Nat} {src : Color}

/-- A pixel that a test fails, or that the pattern gives no colour, is not written. -/
theorem pixel_of_suppressed (suppressed : clipPass s.pg x y = true → chromaPass s.cfg.1 s.pg g src = true →
    patternSelect s.pg x y = none) : pixel g x y src s = s := by
  unfold pixel
  split
  · rename_i clip
    split
    · rename_i chroma
      rw [suppressed clip chroma]
    · rfl
  · rfl

/-- A pixel that passes every test is written with the pattern's colour. -/
theorem pixel_of_passed {pat : Color} (clip : clipPass s.pg x y = true)
    (chroma : chromaPass s.cfg.1 s.pg g src = true) (used : patternSelect s.pg x y = some pat) :
    pixel g x y src s =
      s.memWrite .vram (Config.pixAddr s.pg.blackBox g x y).1 (Config.pixAddr s.pg.blackBox g x y).2
        (pixelValue s.pg g src pat
          (s.memRead .vram (Config.pixAddr s.pg.blackBox g x y).1 (Config.pixAddr s.pg.blackBox g x y).2)) := by
  rw [pixel, if_pos clip, if_pos chroma, used]

end

/-- Settles O51: the three tests are the three clauses. -/
theorem pixelIsWrittenWhenEveryTestPasses : Obligations.PixelIsWrittenWhenEveryTestPasses := by
  intro s g x y src passes hpasses
  have tests : passes ↔ clipPass s.pg x y = true ∧ chromaPass s.cfg.1 s.pg g src = true := by
    rw [hpasses, clipPass_iff, chromaPass_iff, and_assoc (a := _ ∧ _)]
  refine ⟨fun pat passed used => ?written, fun suppressed => pixel_of_suppressed fun clip chroma => ?unwritten⟩
  case written =>
    obtain ⟨clip, chroma⟩ := tests.1 passed
    exact pixel_of_passed clip chroma used
  case unwritten => exact suppressed.resolve_left (not_not_intro (tests.2 ⟨clip, chroma⟩))

/-! ### Fills (rule R272) -/

/-- A row runs its pixels left to right. -/
theorem fillRow_eq_foldl (g : Grobj) (x0 y : Nat) (src : Color) (w : Nat) (s : State) :
    fillRow g x0 y src w s = (List.range w).foldl (fun t dx => pixel g (x0 + dx) y src t) s := by
  induction w with
  | zero => rfl
  | succ w ih => rw [fillRow, ih, List.range_succ, List.foldl_concat]

/-- A fill runs its rows top to bottom. -/
theorem fillRect_eq_foldl (g : Grobj) (x0 y0 w : Nat) (src : Color) (h : Nat) (s : State) :
    fillRect g x0 y0 w src h s = (List.range h).foldl (fun q dy =>
      (List.range w).foldl (fun t dx => pixel g (x0 + dx) (y0 + dy) src t) q) s := by
  induction h with
  | zero => rfl
  | succ h ih => rw [fillRect, ih, fillRow_eq_foldl, List.range_succ, List.foldl_concat]

/-- A fill of pixels none of which is written changes nothing. -/
theorem fillRect_of_unwritten {g : Grobj} {src : Color} {s : State} (unwritten : ∀ x y, pixel g x y src s = s)
    (x0 y0 w h : Nat) : fillRect g x0 y0 w src h s = s := by
  have row (y : Nat) : fillRow g x0 y src w s = s := by
    induction w with
    | zero => rfl
    | succ w ih => rw [fillRow, ih, unwritten]
  induction h with
  | zero => rfl
  | succ h ih => rw [fillRect, ih, row]

/-! ### The ids of RECT (rule R272) -/

section

variable {ids : Vector Word 16} {m : Word}

/-- An id that one index alone has selects that index. -/
theorem rectIndex_eq_some {i : Fin 16} (hit : ids[i] = m) (only : ∀ j : Fin 16, ids[j] = m → j = i) :
    rectIndex ids m = some i := by
  cases found : rectIndex ids m with
  | none => exact absurd (beq_iff_eq.2 hit) (List.find?_eq_none.1 found i (List.mem_finRange i))
  | some j => rw [only j (beq_iff_eq.1 (List.find?_some (p := fun k : Fin 16 => ids[k] == m) found))]

/-- An id that no index has selects none. -/
theorem rectIndex_eq_none (miss : ∀ j : Fin 16, ids[j] ≠ m) : rectIndex ids m = none :=
  List.find?_eq_none.2 fun j _ => fun hit => miss j (beq_iff_eq.1 hit)

end

/-- REFCFG's point ids. -/
theorem refMethods_rectPoint_toNat (i : Fin 16) : refMethods.rectPoint[i].toNat = 0x400 + 8 * i.val := by
  simp [refMethods]
  omega

/-- REFCFG's size ids. -/
theorem refMethods_rectSize_toNat (i : Fin 16) : refMethods.rectSize[i].toNat = 0x404 + 8 * i.val := by
  simp [refMethods]
  omega

section

variable {m : Word}

theorem rectIndex_point {i : Fin 16} (hm : m.toNat = 0x400 + 8 * i.val) :
    rectIndex refMethods.rectPoint m = some i := by
  refine rectIndex_eq_some (BitVec.eq_of_toNat_eq (by rw [refMethods_rectPoint_toNat, hm])) fun j same => ?_
  have := refMethods_rectPoint_toNat j
  rw [same] at this
  omega

theorem rectIndex_size {i : Fin 16} (hm : m.toNat = 0x404 + 8 * i.val) :
    rectIndex refMethods.rectSize m = some i := by
  refine rectIndex_eq_some (BitVec.eq_of_toNat_eq (by rw [refMethods_rectSize_toNat, hm])) fun j same => ?_
  have := refMethods_rectSize_toNat j
  rw [same] at this
  omega

theorem rectIndex_not_point (other : ∀ i, i < 16 → m.toNat ≠ 0x400 + 8 * i) :
    rectIndex refMethods.rectPoint m = none :=
  rectIndex_eq_none fun j same => other j.val j.isLt (by rw [← same, refMethods_rectPoint_toNat])

theorem rectIndex_not_size (other : ∀ i, i < 16 → m.toNat ≠ 0x404 + 8 * i) :
    rectIndex refMethods.rectSize m = none :=
  rectIndex_eq_none fun j same => other j.val j.isLt (by rw [← same, refMethods_rectSize_toNat])

/-- The colour's id is the one id `0x304`. -/
theorem eq_rectColor_iff : m = refMethods.rectColor ↔ m.toNat = 0x304 := BitVec.toNat_inj.symm

end

/-! ### The branches of RECT -/

section

variable {s : State} (methods : s.cfg.1.methods = refMethods) (g : Grobj) {c : MethodCall}

include methods

theorem rectHandler_color (hm : c.m.toNat = 0x304) :
    rectHandler g c s = { s with pg := { s.pg with rectColor := expandParam s g c } } := by
  rw [rectHandler, methods, if_pos (eq_rectColor_iff.2 hm)]

theorem rectHandler_point {i : Fin 16} (hm : c.m.toNat = 0x400 + 8 * i.val) :
    rectHandler g c s = { s with pg := { s.pg with
      rectX := s.pg.rectX.set i (paramX c.param), rectY := s.pg.rectY.set i (paramY c.param) } } := by
  have uncoloured : ¬ c.m = refMethods.rectColor := by rw [eq_rectColor_iff]; omega
  rw [rectHandler, methods, if_neg uncoloured, rectIndex_point hm]

theorem rectHandler_size {i : Fin 16} (hm : c.m.toNat = 0x404 + 8 * i.val) :
    rectHandler g c s = fillRect g s.pg.rectX[i].toNat s.pg.rectY[i].toNat (paramX c.param).toNat s.pg.rectColor
      (paramY c.param).toNat s := by
  have uncoloured : ¬ c.m = refMethods.rectColor := by rw [eq_rectColor_iff]; omega
  have unpointed : rectIndex refMethods.rectPoint c.m = none := rectIndex_not_point fun j _ => by omega
  rw [rectHandler, methods, if_neg uncoloured, unpointed, rectIndex_size hm]

theorem rectHandler_unlisted (uncoloured : c.m.toNat ≠ 0x304)
    (other : ∀ i, i < 16 → c.m.toNat ≠ 0x400 + 8 * i ∧ c.m.toNat ≠ 0x404 + 8 * i) :
    rectHandler g c s = unknownMethod .rect c s := by
  rw [rectHandler, methods, if_neg (mt eq_rectColor_iff.1 uncoloured), rectIndex_not_point fun i hi => (other i hi).1,
    rectIndex_not_size fun i hi => (other i hi).2]

end

/-- A method of RECT completes with its handler and the notifier. -/
theorem exec_mRect {s : State} (running : s.fatal = false) {sub u : Submission} (hu : u = narrowSub s.cfg.1 sub) :
    exec (.mRect sub) s =
      .next ((notify u (rectHandler (grobjFetch sub.ctx s) (callOf u) s)).answer .nothing) :=
  classStep_next running .rect hu

/-- Settles O50: the four branches of the handler. -/
theorem rectFillsRowByRow : Obligations.RectFillsRowByRow := by
  intro s sub u g told running methods hu hg htold
  have param : u.param = sub.param := by rw [hu, narrowSub_param]
  have step : exec (.mRect sub) s = told (rectHandler g (callOf u) s) := by
    rw [htold, hg]
    exact exec_mRect running hu
  refine ⟨fun color => ?color, fun i point => ?point, fun i size => ?size, fun uncoloured other => ?unlisted⟩
  case color =>
    rw [step, rectHandler_color methods g color, ← param]
    rfl
  case point =>
    rw [step, rectHandler_point methods g point, ← param, ← paramX_eq, ← paramY_eq]
    rfl
  case size =>
    rw [step, rectHandler_size methods g size, fillRect_eq_foldl, ← param, ← paramX_eq, ← paramY_eq]
    rfl
  case unlisted =>
    rw [step, rectHandler_unlisted methods g uncoloured other, ← param]
    rfl

/-! ### Suppressed fills (rules R291, R292) -/

/-- A shape selects one of the bitmap's 64 bits. -/
theorem patternIndex_lt {shape : BitVec 2} {x y i : Nat} (selects : patternIndex shape x y = some i) : i < 64 := by
  unfold patternIndex at selects
  split at selects
  · cases selects; omega
  · cases selects; omega
  · cases selects; omega
  · cases selects

/-- Where the colour of every bitmap bit has zero alpha the pattern gives no colour (rule R291). -/
theorem patternSelect_of_transparent {p : Pgraph}
    (transparent : ∀ k, k < 64 → (if p.patBitmap.getLsbD k then p.patColor1 else p.patColor0).a = 0) (x y : Nat) :
    patternSelect p x y = none := by
  unfold patternSelect
  split
  · rfl
  · rename_i i selects
    exact if_pos (transparent i (patternIndex_lt selects))

/-- Settles O53: no pixel of the fill is written, by the pattern or by the chroma key. -/
theorem suppressedFillChangesNothing : Obligations.SuppressedFillChangesNothing := by
  intro s sub u i running methods hu hm
  have unchanged (unwritten : ∀ x y, pixel (grobjFetch sub.ctx s) x y s.pg.rectColor s = s) :
      exec (.mRect sub) s = .next ((notify u s).answer .nothing) := by
    rw [exec_mRect running hu, rectHandler_size methods _ hm, fillRect_of_unwritten unwritten]
  refine ⟨fun transparent => unchanged fun x y => pixel_of_suppressed fun _ _ => ?pattern,
    fun enabled alpha same => unchanged fun x y => pixel_of_suppressed fun _ passed => ?chroma⟩
  case pattern => exact patternSelect_of_transparent transparent x y
  case chroma => exact absurd ⟨enabled, alpha, by rw [same]⟩ ((chromaPass_iff _ _ _ _).1 passed)

end Sys2Proof.Machine
end

section
/-! The PCI configuration operations (rules R300 to R302) and the linear framebuffer (rule R308). -/

namespace Sys2Proof.Machine

/-! ### Configuration bytes -/

/-- What a configuration write stores, with the ranges of the two BARs compared as numbers (rule R302). -/
theorem cfgStored_eq (c : Cfg) (off v : Byte) :
    cfgStored c off v =
      if 0x10 ≤ off.toNat ∧ off.toNat ≤ 0x13 then
        v &&& ~~~BitVec.ofNat 8 ((2 ^ c.addrBits - 1) / 2 ^ (8 * (off.toNat - 0x10)))
      else if 0x14 ≤ off.toNat ∧ off.toNat ≤ 0x17 then
        v &&& ~~~BitVec.ofNat 8 ((c.vramSize - 1) / 2 ^ (8 * (off.toNat - 0x14)))
      else v :=
  rfl

/-- A configuration write to an id stores nothing (rule R302). -/
theorem cfgWrite_id {off : Byte} (id : off.toNat ≤ 3) (v : Byte) (s : State) : cfgWrite off v s = s :=
  if_pos (BitVec.le_def.2 id)

/-- A configuration write above the ids stores one byte (rule R302). -/
theorem cfgWrite_of_above {off : Byte} (above : 3 < off.toNat) (v : Byte) (s : State) :
    cfgWrite off v s = s.setPci off (cfgStored s.cfg.1 off v) :=
  if_neg fun id => Nat.not_le.2 above (BitVec.le_def.1 id)

/-- A configuration write of a function that does not exist, or to an id, does nothing (rules R300, R302). -/
theorem configOut_of_ignored {fn off : Byte} (ignored : fn ≠ 0 ∨ off.toNat ≤ 3) (v : Byte) (s : State) :
    configOut fn off v s = s := by
  unfold configOut
  split
  · rename_i function0
    exact cfgWrite_id (ignored.resolve_left (not_not_intro function0)) v s
  · rfl

/-- Settles O56: a write above the ids is the store of one byte, and any other leaves the state. -/
theorem configurationBytesAreStored : Obligations.ConfigurationBytesAreStored := by
  intro s fn off v running
  refine ⟨complete_next running _ _, fun ignored => ?ignored, fun function0 above => ?stored⟩
  case ignored =>
    exact (complete_next running _ _).trans (by rw [configOut_of_ignored ignored]; rfl)
  case stored =>
    subst function0
    refine ⟨_, exec_cfgwr8 running off v, ?frame, fun o => ?byte⟩
    case frame =>
      rw [cfgWrite_of_above above]
      rfl
    case byte =>
      rw [cfgWrite_of_above above, ← cfgStored_eq, ite_not]
      exact s.pciByte_setPci off _ o

/-! ### The linear framebuffer -/

/-- The low halfword of four assembled bytes is the first two. -/
theorem wordOf_lowHalf (b0 b1 b2 b3 : Byte) : (wordOf b0 b1 b2 b3).setWidth 16 = b1 ++ b0 := by
  have halves : wordOf b0 b1 b2 b3 = (b3 ++ b2) ++ (b1 ++ b0) := BitVec.append_assoc
  rw [halves]
  exact BitVec.setWidth_append_eq_right

/-- An LFB read answers the bytes at its offset (rule R308). -/
theorem exec_lfbrd {s : State} (running : s.fatal = false) (n : Width) (off : Word) :
    exec (.lfbrd n off) s = .next (s.answer (replyOf n (s.memRead .vram off.toNat n))) :=
  complete_next running _ _

/-- An LFB write stores its bytes in VRAM (rule R308). -/
theorem exec_lfbwr {s : State} (running : s.fatal = false) (off : Word) (d : Datum) :
    exec (.lfbwr off d) s =
      .next ((s.memWrite .vram off.toNat (datumWidth d) (datumWord d)).answer .nothing) :=
  complete_next running _ _

/-- No access is wider than a dword. -/
theorem width_bytes_le_four (n : Width) : n.bytes ≤ 4 := by cases n <;> decide

/-- VRAM is larger than any access under every configuration (rule R5). -/
theorem four_le_vramSize (c : ValidCfg) : 4 ≤ c.1.vramSize := by
  have valid := c.2
  simp only [Cfg.valid, Cfg.scalarsOk, Bool.and_eq_true, Bool.or_eq_true, beq_iff_eq] at valid
  have sizes : c.1.vramSize = 0x200000 ∨ c.1.vramSize = 0x400000 ∨ c.1.vramSize = 0x800000 := by tauto
  omega

/-- No two offsets nearer than a modulus fall on one (rule R66). -/
theorem add_mod_ne_of_ne {off i j m : Nat} (hi : i < m) (hj : j < m) (apart : i ≠ j) :
    (off + j) % m ≠ (off + i) % m :=
  fun same => apart ((Nat.ModEq.add_left_cancel' off same).eq_of_lt_of_lt hj hi).symm

/-- Settles O59: the read assembles VRAM's bytes, and as VRAM is larger than the access, each byte of a write has an
offset of its own. -/
theorem linearFramebufferIsVram : Obligations.LinearFramebufferIsVram := by
  rintro s off d n v running rfl rfl
  have byteRead : replyOf .b1 (s.memRead .vram off.toNat .b1) = .u8 (s.byteAt .vram off.toNat) :=
    congrArg Reply.u8 BitVec.setWidth_append_eq_right
  have halfRead : replyOf .b2 (s.memRead .vram off.toNat .b2) =
      .u16 (s.byteAt .vram (off.toNat + 1) ++ s.byteAt .vram off.toNat) :=
    congrArg Reply.u16 (wordOf_lowHalf _ _ _ _)
  obtain ⟨hit, miss⟩ :=
    s.bytes_after_memWrite (sp := .vram) (by decide) off.toNat (datumWidth d) (datumWord d)
  have room : (datumWidth d).bytes ≤ s.cfg.1.vramSize := (width_bytes_le_four _).trans (four_le_vramSize s.cfg)
  refine ⟨byteRead ▸ exec_lfbrd running .b1 off, halfRead ▸ exec_lfbrd running .b2 off, exec_lfbrd running .b4 off,
    _, exec_lfbwr running off d, congrArg (State.answer · .nothing) (s.memWrite_vram_frame _ _ _),
    fun i k hi => ?_, miss⟩
  exact hit i k hi fun j later hj => add_mod_ne_of_ne (hi.trans_le room) (hj.trans_le room) later.ne

end Sys2Proof.Machine
end
